-- ==== Sys2Proof/Word.lean ====
section
/-! DEFINITION. The widths of the block's values (00_scope.md R9 to R11): bytes, 32-bit arguments and
addresses, 48-bit frames, 512-byte blocks. -/

namespace Sys2Proof

/-- One byte; within a byte bit 7 is the most significant (R9). -/
abbrev Byte := BitVec 8

/-- A 32-bit value: a command's argument, a card byte address, an OCR (R104, R60). -/
abbrev Word := BitVec 32

/-- A 48-bit frame on the command line, bit 47 first on the wire (R91, R93). -/
abbrev Frame := BitVec 48

/-- The working block: 512 bytes, byte 0 first on the wire (R7 `WORK_BLOCK`, R64). A list with its length, so that
blocks compare byte by byte. -/
structure Block where
  toList : List Byte
  size   : toList.length = 512
  deriving DecidableEq, Repr

/-- 16 bytes, MSB-first: byte 0 is the most significant (R10, R30). -/
abbrev RspBuf := Vector Byte 16

/-- A 128-bit register of the card: its bytes MSB-first, byte 0 is bits 127 to 120 (R10, R24, R62). -/
abbrev Reg128 := BitVec 128

end Sys2Proof
end

