-- ==== Sys2Proof/Config.lean ====
section
/-! DEFINITION. The implementation parameters of 00_scope.md R7, and the free values: what the spec leaves
unspecified after something has happened, as constants without a body. -/

namespace Sys2Proof

/-- The two realizations of the Host Transport (R3, R207): a build-time constant. -/
inductive Realization where
  | bitPulse     -- A: narrow shift registers, card clock bracketed around each exchange (R205)
  | registerIp   -- B: a register/IP-block controller (R206)
  deriving DecidableEq, Repr, Inhabited

/-- The parameters that R7 leaves OPEN: one record, supplied once at init and never written (R41, R46).
The State carries it so that every statement holds for every choice of them. `negRecheck` is the model's own, for a
point on which two rules differ. -/
structure Config where
  realization  : Realization
  /-- `NEG_MAX_TRIES`: at least 1. -/
  negMaxTries  : Nat
  /-- `NEG_MAX_MS`: at least 1. -/
  negMaxMs     : Nat
  /-- `CLK_SETTLE_US`: settle time after a clock-rate change, at least 0 (D42). -/
  clkSettleUs  : Nat
  /-- `WORDS_PER_POLL`: at least 1; no result depends on it (R198). -/
  wordsPerPoll : Nat
  /-- `HOST_OCR_MASK`: the host's voltage windows; bits 31 and 30 are 0 (D23). -/
  hostOcrMask  : Word
  /-- `HOST_WIDE`: 4-bit bus supported and negotiation compiled in (D30). -/
  hostWide     : Bool
  /-- `CMD8_ENABLE`: whether state Reset issues SEND_IF_COND (D21). -/
  cmd8Enable   : Bool
  /-- `IDENT_HZ`: at most 400000; timing only. -/
  identHz      : Nat
  /-- `OPER_HZ`: timing only. -/
  operHz       : Nat
  /-- MODEL: whether the negotiation loop looks at its ceilings again after its delay, as R229 has it, or goes on to the
  next try, as R228's pseudocode has it (assumption log 24). -/
  negRecheck   : Bool
  deriving DecidableEq, Repr

namespace Config

/-- The constraints R7 puts on the OPEN parameters. -/
def wf (c : Config) : Bool :=
  decide (1 ≤ c.negMaxTries) && decide (1 ≤ c.negMaxMs) && decide (1 ≤ c.wordsPerPoll)
    && decide (c.hostOcrMask &&& 0xC0000000#32 = 0#32) && decide (c.identHz ≤ 400000)

/-! The parameters whose value R7 fixes. A claim names the parameter, not the literal (R8). -/

/-- `T_CMD_MS`, bound on the wait for a command's completion. -/
def tCmdMs : Nat := 300
/-- `T_DATA_MS`, bound on the wait for data (D17). -/
def tDataMs : Nat := 300
/-- `T_BUSY_MS`, bound on the busy wait after an R1b response (D17, D33). -/
def tBusyMs : Nat := 300
/-- `POLL_TRIES`, tries of the power-up poll. -/
def pollTries : Nat := 10
/-- `POLL_SPACING_MS`, delay before each poll try. -/
def pollSpacingMs : Nat := 10
/-- `NEG_DELAY_MS`, delay between negotiation tries (D17). -/
def negDelayMs : Nat := 10
/-- `WORK_BLOCK`, the working block size, also the cache size. -/
def workBlock : Nat := 512
/-- `MMC_RCA`, the address assigned to an MMC card. -/
def mmcRca : BitVec 16 := 1
/-- `CACHE_INVALID`, the base address of an empty cache (D26). -/
def cacheInvalid : Word := 0xFFFFFFFF
/-- `IF_COND_ARG`, the argument of SEND_IF_COND (D7). -/
def ifCondArg : Word := 0x000001AA
/-- `BUS_WIDTH_ARG`, the argument of SET_BUS_WIDTH (D7). -/
def busWidthArg : Word := 0x00000002

/-! What the platform chose for the parameters that R7 leaves OPEN without a default: the spec gives no
value, so these have none (assumption log 8). -/

opaque platformRealization : Realization
opaque platformSettleUs : Nat
opaque platformWordsPerPoll : Nat
opaque platformIdentHz : Fin 400001
opaque platformOperHz : Nat
/-- Which of R228 and R229 the implementation follows where they differ (assumption log 24). -/
opaque platformNegRecheck : Bool

/-- What the platform supplied: the defaults R7 names, and no known value elsewhere. -/
def platform : Config where
  realization  := platformRealization
  negMaxTries  := 100
  negMaxMs     := 1000
  clkSettleUs  := platformSettleUs
  wordsPerPoll := platformWordsPerPoll + 1
  hostOcrMask  := 0x00FF8000
  hostWide     := false
  cmd8Enable   := true
  identHz      := platformIdentHz.val
  operHz       := platformOperHz
  negRecheck   := platformNegRecheck

/-! Free values (assumption log 5): each is applied to the draw counter of State, and nothing in Lean can say
what it answers. -/

/-- How far the timer moves beyond a stated lower bound (R42, R203, D18). -/
opaque freeTick : Nat → Nat
/-- The Response Buffer where R30 leaves all of it unspecified. -/
opaque freeRb : Nat → RspBuf
/-- `RB[4..7]` and `RB[12..15]` after a 48-bit response (R111). -/
opaque freePad : Nat → Reg128
/-- Each byte of the destination of a data command that failed (R198, R201). -/
opaque freeByte : Nat → Nat → Byte

/-- The destination of a data command that failed, byte by byte. -/
@[irreducible] def freeBlock (n : Nat) : Block := ⟨(List.range 512).map (freeByte n), by simp⟩

end Config
end Sys2Proof
end

