-- ==== Sys2Proof/Syntax.lean ====
section
/-! DEFINITION. The instructions: one constructor per row of spec/opcode_table.json, the fifteen card commands
(30_encoding.md R101) and the four host operations (R120). -/

namespace Sys2Proof

/-- The Transfer Request `DESC` of 10_state.md R36: the caller's record, passed by value (R121). -/
structure Desc where
  /-- Card byte address of the first byte of the extent. -/
  start  : Word
  /-- Number of bytes in the extent. -/
  length : Word
  /-- Position inside the extent, 0 to `length`. -/
  cursor : Word
  deriving DecidableEq, Repr

/-- A card command stands for `execute(NAME, arg)` (42_host_transport.md R190); it carries an argument exactly
where its table row leaves frame bits 39:8 open. A host operation carries the operands of R121. -/
inductive Instr where
  | goIdleState                    -- CMD0, R161
  | sendOpCond (arg : Word)        -- CMD1, R162
  | allSendCid                     -- CMD2, R163
  | setRelativeAddr                -- CMD3 (MMC), R164
  | sendRelativeAddr               -- CMD3 (SD), R165
  | setBusWidth                    -- ACMD6, R166
  | selectCard (arg : Word)        -- CMD7 with an RCA, R167
  | deselectCard                   -- CMD7 with RCA 0, R168
  | sendIfCond                     -- CMD8, R169
  | sendCsd (arg : Word)           -- CMD9, R170
  | stopTransmission               -- CMD12, R171
  | setBlocklen                    -- CMD16, R173
  | readSingleBlock (addr : Word)  -- CMD17, R172
  | sdSendOpCond (arg : Word)      -- ACMD41, R174
  | appCmd (arg : Word)            -- CMD55, R175
  | acquire                        -- host operation 0, R220
  | openDesc (d : Desc)            -- host operation 1, R260
  /-- Host operation 2, R261: descriptor, size in bytes of the caller's buffer, length to read. -/
  | read (d : Desc) (bufSize : Word) (length : Word)
  | seek (d : Desc) (pos : Word)   -- host operation 3, R272
  deriving DecidableEq, Repr

end Sys2Proof
end

