-- ==== Sys2Proof/Machine/Types.lean ====
section
/-! DEFINITION. The names and records of the wire and of the transport: response formats, command names,
descriptors, the card's answers, failure kinds and statuses. Data only; what they mean stands in the files
beside this one. -/

namespace Sys2Proof.Machine

/-- The response formats of 30_encoding.md R100, in the order of their tag codes 0 to 6. -/
inductive RspFormat where
  | none | r1 | r1b | r2 | r3 | r6 | r7
  deriving DecidableEq, Repr

/-- The fifteen rows of the command table (30_encoding.md R101). -/
inductive Cmd where
  | goIdleState | sendOpCond | allSendCid | setRelativeAddr | sendRelativeAddr | setBusWidth | selectCard
  | deselectCard | sendIfCond | sendCsd | stopTransmission | readSingleBlock | setBlocklen | sdSendOpCond
  | appCmd
  deriving DecidableEq, Repr

/-- The fixed part of a Command Descriptor (30_encoding.md R100). -/
structure Descriptor where
  index : BitVec 6
  rsp   : RspFormat
  /-- `LS`, low speed: use the identification clock. -/
  ls    : Bool
  /-- `ACMD`: an APP_CMD prefix goes first. -/
  acmd  : Bool
  /-- `DATA`: a data phase of 512 bytes follows. -/
  data  : Bool
  /-- `WRITE`: kept in the word, refused by `execute` (D36). -/
  write : Bool
  /-- `BUSY`: a busy wait follows the response. -/
  busy  : Bool
  deriving DecidableEq, Repr

/-- The response part of the card's answer (30_encoding.md R112). -/
inductive Rsp where
  | noResponse
  | rsp48 (index : BitVec 6) (payload : Word) (crc : BitVec 7)
  /-- `content[7:1]` is the CRC field and `content[0]` the end bit. -/
  | rsp136 (content : Reg128)
  deriving DecidableEq, Repr

/-- The data part of the card's answer (30_encoding.md R112). -/
inductive DataAns where
  | noData
  | data (bytes : Block) (crc : BitVec 16)
  /-- One CRC per data line, line 3 first. -/
  | data4 (bytes : Block) (crc3 crc2 crc1 crc0 : BitVec 16)
  deriving DecidableEq, Repr

/-- The card's whole answer to one frame, `ANS` (30_encoding.md R112). -/
structure Answer where
  rsp          : Rsp
  busyReleased : Bool
  data         : DataAns
  deriving DecidableEq, Repr

/-- The five failure kinds of the transport (60_exceptions.md R290). -/
inductive FailKind where
  | cmdTimeout | rspCrc | cmdIndex | dataTimeout | dataCrc
  deriving DecidableEq, Repr

/-- The six completion statuses (60_exceptions.md R291), in the order of their codes. -/
inductive Status where
  | ok | genericFailure | commandError | timeout | transientFifoCondition | crcError
  deriving DecidableEq, Repr

/-- The card families of the two branches of the acquisition (00_scope.md R19). -/
inductive Branch where
  | sd | mmc
  deriving DecidableEq, Repr

/-- Why the decoder rejects bytes. -/
inductive Reject where
  | truncated                              -- fewer bytes than the instruction has
  | notCommandFrame                        -- start and direction bits are not 0b01 (R91)
  | endBit                                 -- bit 0 of a frame is not 1 (R91)
  | reservedIndex (index : BitVec 6)       -- an index the block never sends (R116)
  | badArgument (index : BitVec 6)         -- a fixed argument field with another value (opcode table)
  | reservedOp                             -- a request word with bits above the 2-bit op field set
  deriving DecidableEq, Repr

end Sys2Proof.Machine
end

