-- ==== Sys2Proof/Machine/State.lean ====
section
/-! DEFINITION. The state of the block (10_state.md), the reasons a step can stop, and the state after reset
(R51, R330). Plain data. Fields marked MODEL are the model's own, not the spec's. -/

namespace Sys2Proof.Machine

/-- Why the machine stops with a fault: never. "Nothing in the block is `stuck` or `fault`: every operation ends
and every outcome is a status value" (93_implementation_defined.md section 2; 60_exceptions.md R299). -/
inductive Fault where
  deriving DecidableEq, Repr

/-- Why a step gives no meaning: the refusals of 60_exceptions.md R295. Each errs toward unprovable (safe). -/
inductive Refusal where
  /-- Raised by `exec` for an instruction without a meaning; none is left (safe). -/
  | notModelled (mnemonic : String)
  /-- Raised by `step`: the bytes at the port name no command of the table and no operation (R116) (safe). -/
  | undecodable (why : Reject)
  /-- Raised by `execute` for a descriptor with the write flag (R202) (safe). -/
  | writeFlag
  /-- Raised by `execute` for a data command without a destination (R202) (safe). -/
  | noDestination
  /-- Raised by the exchange: the card's response is not of the length the format expects (R112) (safe). -/
  | answerLength
  /-- Raised by the data phase: `Data` on the 4-bit bus or `Data4` on the 1-bit bus (R112) (safe). -/
  | dataFormat
  /-- Raised by OPEN, READ and SEEK on a descriptor that is not well formed (R273) (safe). -/
  | malformedDescriptor
  /-- Raised by READ when the caller's buffer is shorter than the length asked for (R273) (safe). -/
  | shortBuffer
  /-- Raised by a host operation while another is in progress (R73, R295) (safe). -/
  | operationInProgress
  deriving DecidableEq, Repr

/-- `acq_state` (R33): the acquisition sequencer, the block's program counter. -/
inductive AcqState where
  | idle | reset
  | trySdOpCond | checkSdOcr | pollSdOcr | negotiateSdOcr | getCidSd | getRcaSd | getCsdSd
  | tryMmcOpCond | checkMmcOcr | pollMmcOcr | negotiateMmcOcr | getCidMmc | setRcaMmc | getCsdMmc
  | done | failed
  deriving DecidableEq, Repr

/-- `acq_result` (R34), codes 0 to 3. -/
inductive AcqResult where
  | none | acquired | noCard | identifyFailed
  deriving DecidableEq, Repr

/-- `rf_state` (R37): the refill sequencer. -/
inductive RfState where
  | idle | deselect | select | busWidth | blockLen | read
  deriving DecidableEq, Repr

/-- `clk_sel` (R39): 0 the identification rate, 1 the operating rate. -/
inductive ClkSel where
  | ident | oper
  deriving DecidableEq, Repr

/-- The Card Session `S` (R20 to R29). -/
structure Session where
  acquired      : Bool
  sd            : Bool
  rca           : BitVec 16
  cid           : Reg128
  csd           : Reg128
  blockLen      : Word
  blockCount    : Word
  deviceSize    : BitVec 64
  acquireTimeMs : Word
  deriving DecidableEq, Repr

/-- The Sector Cache (R31). -/
structure Cache where
  base : Word
  buf  : Block
  deriving DecidableEq, Repr

/-- The Command Descriptor latch `CD` (R32): the descriptor and argument of the command in progress. -/
structure Latch where
  desc : Descriptor
  arg  : Word
  deriving DecidableEq, Repr

/-- The transport status flags `ST` (R38). -/
structure Flags where
  cmdDone     : Bool
  xferDone    : Bool
  dataReady   : Bool
  cmdTimeout  : Bool
  rspCrcErr   : Bool
  cmdIndexErr : Bool
  dataTimeout : Bool
  dataCrcErr  : Bool
  deriving DecidableEq, Repr

/-- A byte-addressed space as the list of its cells that are not 0, addresses strictly rising. -/
abbrev Memory := List Host.Cell

/-- What the last operation or command returned (30_encoding.md R120; 42_host_transport.md R190). -/
inductive Result where
  | none
  | acquired (ok : Bool)
  | status (st : Status)
  | read (count : Word) (st : Status) (cursor : Word)
  | cursor (cursor : Word)
  deriving DecidableEq, Repr

/-- What the block did on its outward side. -/
inductive EventKind where
  | clock (c : ClkSel)                -- the card clock changed rate
  | delayUs (n : Nat)                 -- a delay of n microseconds began
  | delayMs (n : Nat)                 -- a delay of n milliseconds began
  | frame (f : Frame) (c : ClkSel)    -- a command frame went out at this clock
  deriving DecidableEq, Repr

/-- An event with the timer value at which it happened. -/
structure Event where
  kind : EventKind
  atMs : Nat
  deriving DecidableEq, Repr

/-- The block's state, with the inputs of its environment. -/
structure State where
  /-- The Card Session (R20). -/
  session     : Session
  /-- The Response Buffer `RB`, 16 bytes MSB-first (R30). -/
  rb          : RspBuf
  /-- The Sector Cache (R31). -/
  cache       : Cache
  /-- The command latch `CD` (R32). -/
  cd          : Latch
  /-- `acq_state` (R33). -/
  acqState    : AcqState
  /-- `acq_result` (R34). -/
  acqResult   : AcqResult
  /-- `tries` (R35). -/
  tries       : Nat
  /-- `ocr` (R35). -/
  ocr         : Word
  /-- `neg_arg` (R35). -/
  negArg      : Word
  /-- `neg_t0` (R35). -/
  negT0       : Nat
  /-- `sd_try_timed_out` (R35). -/
  sdTimedOut  : Bool
  /-- `mmc_try_timed_out` (R35). -/
  mmcTimedOut : Bool
  /-- `rf_state` (R37). -/
  rfState     : RfState
  /-- `ST` (R38). -/
  st          : Flags
  /-- `clk_sel` (R39). -/
  clkSel      : ClkSel
  /-- `clk_run`, realization A only (R39). -/
  clkRun      : Bool
  /-- `bus_wide` (R40). -/
  busWide     : Bool
  /-- `HOST_OCR_MASK`, `HOST_WIDE` and the other OPEN parameters (R41, R7): never written. -/
  cfg         : Config
  /-- `now_ms` (R42). -/
  nowMs       : Nat
  /-- `DESC`, the host-side descriptor with the cursor the last READ or SEEK returned (R36). -/
  desc        : Desc
  /-- `CALLER`, the destination buffer of a READ, indexed from 0 (R60). -/
  caller      : Memory
  /-- MODEL: what the last operation or command returned. -/
  result      : Result
  /-- MODEL: the requests presented to the block and not yet taken, as bytes, oldest first. -/
  port        : List Byte
  /-- MODEL: the CARD agent's answers, one per frame, in order (R17, R112). -/
  card        : List Answer
  /-- MODEL: the TIMER agent's advances beyond the lower bounds, in order (R17, R42). -/
  ticks       : List Nat
  /-- MODEL: how many free values have been drawn. -/
  draws       : Nat
  /-- MODEL: what the block did on its outward side, newest first. -/
  trace       : List Event
  deriving DecidableEq, Repr

/-- A session with every field zero (R20 "created zeroed", R47). -/
def Session.zero : Session where
  acquired      := false
  sd            := false
  rca           := 0
  cid           := 0
  csd           := 0
  blockLen      := 0
  blockCount    := 0
  deviceSize    := 0
  acquireTimeMs := 0

/-- Every flag 0 (R38). -/
def Flags.clear : Flags where
  cmdDone     := false
  xferDone    := false
  dataReady   := false
  cmdTimeout  := false
  rspCrcErr   := false
  cmdIndexErr := false
  dataTimeout := false
  dataCrcErr  := false

/-- The state after reset (R51, R330). Where R51 says "unspecified" or "owned by the host" the value is the one
the assumption log names (entries 6 to 9): zero, and for the parameters `Config.platform`. -/
def State.reset : State where
  session     := Session.zero
  rb          := Vector.replicate 16 0
  cache       := { base := Config.cacheInvalid, buf := ⟨List.replicate 512 0, List.length_replicate⟩ }
  cd          := { desc := ⟨0, .none, false, false, false, false, false⟩, arg := 0 }
  acqState    := .idle
  acqResult   := .none
  tries       := 0
  ocr         := 0
  negArg      := 0
  negT0       := 0
  sdTimedOut  := false
  mmcTimedOut := false
  rfState     := .idle
  st          := Flags.clear
  clkSel      := .ident
  clkRun      := false
  busWide     := false
  cfg         := Config.platform
  nowMs       := 0
  desc        := ⟨0, 0, 0⟩
  caller      := []
  result      := .none
  port        := []
  card        := []
  ticks       := []
  draws       := 0
  trace       := []

end Sys2Proof.Machine
end

