-- ==== Sys2Proof/Machine/Flags.lean ====
section
/-! DEFINITION. The transport status flags and the statuses: which flag a failure kind sets, which status it
becomes, the numeric codes (60_exceptions.md R290 to R292). -/

namespace Sys2Proof.Machine

/-- Setting the flag of a failure kind (R290). -/
def Flags.raise (st : Flags) : FailKind → Flags
  | .cmdTimeout => { st with cmdTimeout := true }
  | .rspCrc => { st with rspCrcErr := true }
  | .cmdIndex => { st with cmdIndexErr := true }
  | .dataTimeout => { st with dataTimeout := true }
  | .dataCrc => { st with dataCrcErr := true }

/-- `status_of` (R292). -/
def statusOf : Option FailKind → Status
  | none => .ok
  | some .cmdTimeout => .timeout
  | some .dataTimeout => .timeout
  | some .rspCrc => .crcError
  | some .dataCrc => .crcError
  | some .cmdIndex => .commandError

/-- The 3-bit status codes (R291). -/
def Status.code : Status → BitVec 3
  | .ok => 0
  | .genericFailure => 1
  | .commandError => 2
  | .timeout => 3
  | .transientFifoCondition => 4
  | .crcError => 5

/-- The status of a code; codes 6 and 7 are never produced (R291). -/
def Status.ofCode (c : BitVec 3) : Option Status :=
  if c = 0 then some .ok
  else if c = 1 then some .genericFailure
  else if c = 2 then some .commandError
  else if c = 3 then some .timeout
  else if c = 4 then some .transientFifoCondition
  else if c = 5 then some .crcError
  else none

/-- The 2-bit codes of `acq_result` (R34). -/
def AcqResult.code : AcqResult → BitVec 2
  | .none => 0
  | .acquired => 1
  | .noCard => 2
  | .identifyFailed => 3

/-- What one poll of the data phase reports (R199, R294): the data FIFO is ready, or momentarily not. The poll is
repeated inside the command and the status never leaves it. -/
def pollStatus (ready : Bool) : Status :=
  if ready then .ok else .transientFifoCondition

end Sys2Proof.Machine
end

