-- ==== Sys2Proof/Machine/Bits.lean ====
section
/-! DEFINITION. Bit strings, byte order and the bit reader (00_scope.md R9, R10; 40_command_model.md R134). -/

namespace Sys2Proof.Machine

/-- The bits of a value in transmission order: most significant first (R9). -/
def bitsMsb {w : Nat} (v : BitVec w) : List Bool :=
  (List.range w).map fun i => v.getMsbD i

/-- The bits of a byte string in transmission order, each byte bit 7 first (R142). -/
def bitsOfBytes (bs : List Byte) : List Bool :=
  bs.flatMap bitsMsb

/-- Byte `i` of a 16-byte MSB-first array: byte 0 is bits 127 to 120 (R10, R62). -/
def byteOf (v : Reg128) (i : Nat) : Byte :=
  v.extractLsb' (8 * (15 - i)) 8

/-- The 16 bytes of a register, byte 0 first. -/
def bytes16 (v : Reg128) : List Byte :=
  (List.range 16).map (byteOf v)

/-- The 16 bytes of a register as a buffer. -/
def regBytes (v : Reg128) : RspBuf :=
  #v[byteOf v 0, byteOf v 1, byteOf v 2, byteOf v 3, byteOf v 4, byteOf v 5, byteOf v 6, byteOf v 7,
    byteOf v 8, byteOf v 9, byteOf v 10, byteOf v 11, byteOf v 12, byteOf v 13, byteOf v 14, byteOf v 15]

/-- `val128(B)` of R10. -/
def val128 (b : RspBuf) : Reg128 :=
  b[0] ++ b[1] ++ b[2] ++ b[3] ++ b[4] ++ b[5] ++ b[6] ++ b[7]
    ++ b[8] ++ b[9] ++ b[10] ++ b[11] ++ b[12] ++ b[13] ++ b[14] ++ b[15]

/-- `be32(B, i)` of R10. -/
def be32 (bs : List Byte) (i : Nat) : Word :=
  bs.getD i 0 ++ bs.getD (i + 1) 0 ++ bs.getD (i + 2) 0 ++ bs.getD (i + 3) 0

/-- `be16(B, i)` of R10. -/
def be16 (bs : List Byte) (i : Nat) : BitVec 16 :=
  bs.getD i 0 ++ bs.getD (i + 1) 0

/-- The four bytes of a 32-bit value, most significant first. -/
def wordBytes (w : Word) : List Byte :=
  [w.extractLsb' 24 8, w.extractLsb' 16 8, w.extractLsb' 8 8, w.extractLsb' 0 8]

/-- The six bytes of a frame, most significant first (R92). -/
def frameBytes (f : Frame) : List Byte :=
  [f.extractLsb' 40 8, f.extractLsb' 32 8, f.extractLsb' 24 8, f.extractLsb' 16 8, f.extractLsb' 8 8,
    f.extractLsb' 0 8]

/-- The `8N`-bit value `B[0] ‖ B[1] ‖ … ‖ B[N-1]` of a byte array (R134). -/
def bytesVal (bs : List Byte) : Nat :=
  bs.foldl (fun v b => v * 256 + b.toNat) 0

/-- `(V >> off) & (2^len - 1)`. -/
def bitField (v off len : Nat) : Nat :=
  (v >>> off) % 2 ^ len

/-- `field(B, off, len)` of 40_command_model.md R134; `none` outside its domain (refused). -/
def field (bs : List Byte) (off len : Nat) : Option Nat :=
  if 1 ≤ len ∧ len ≤ 32 ∧ off + len ≤ 8 * bs.length then some (bitField (bytesVal bs) off len) else none

end Sys2Proof.Machine
end

