-- ==== Sys2Proof/Machine/Checksum.lean ====
section
/-! DEFINITION. The two checksums and the per-line bit strings of the 4-bit data bus (40_command_model.md R140
to R143). -/

namespace Sys2Proof.Machine

/-- One bit through the 7-bit CRC register, generator `x^7 + x^3 + 1` (R140). -/
def crc7Step (crc : BitVec 7) (b : Bool) : BitVec 7 :=
  if crc.msb ^^ b then (crc <<< 1) ^^^ 0x09#7 else crc <<< 1

/-- The register after the bits of a string, from a given content: `crc7Step` bit by bit. The branch stands
outside the recursion so that a long string evaluates without nesting. -/
def crc7From : BitVec 7 → List Bool → BitVec 7
  | crc, [] => crc
  | crc, b :: bs => if crc.msb ^^ b then crc7From ((crc <<< 1) ^^^ 0x09#7) bs else crc7From (crc <<< 1) bs

/-- `crc7(bits)` (R140): initial value 0, transmission order, no reflection, no inversion. -/
def crc7 (bits : List Bool) : BitVec 7 := crc7From 0#7 bits

/-- One bit through the 16-bit CRC register, generator `x^16 + x^12 + x^5 + 1` (R142). -/
def crc16Step (crc : BitVec 16) (b : Bool) : BitVec 16 :=
  if crc.msb ^^ b then (crc <<< 1) ^^^ 0x1021#16 else crc <<< 1

/-- The register after the bits of a string, from a given content. -/
def crc16From : BitVec 16 → List Bool → BitVec 16
  | crc, [] => crc
  | crc, b :: bs =>
    if crc.msb ^^ b then crc16From ((crc <<< 1) ^^^ 0x1021#16) bs else crc16From (crc <<< 1) bs

/-- `crc16_bits(bits)` (R142): initial value 0. -/
def crc16Bits (bits : List Bool) : BitVec 16 := crc16From 0#16 bits

/-- `crc16(bytes)` (R142): each byte bit 7 first. -/
def crc16 (bs : List Byte) : BitVec 16 :=
  crc16Bits (bitsOfBytes bs)

/-- Line `j` of `lines4(bytes)` (R143): of each byte first bit `4 + j`, then bit `j`. -/
def line4 (bs : List Byte) (j : Nat) : List Bool :=
  bs.flatMap fun b => [b.getLsbD (4 + j), b.getLsbD j]

/-- The four per-line checksums, line 3 first (R115, R143). -/
def lineCrcs (bs : List Byte) : BitVec 16 × BitVec 16 × BitVec 16 × BitVec 16 :=
  (crc16Bits (line4 bs 3), crc16Bits (line4 bs 2), crc16Bits (line4 bs 1), crc16Bits (line4 bs 0))

end Sys2Proof.Machine
end

