-- ==== Sys2Proof/Machine/Frames.lean ====
section
/-! DEFINITION. The frames of the command line and of the data lines (30_encoding.md R90 to R94, R113 to
R115) and the properties of the response formats (R102). -/

namespace Sys2Proof.Machine

/-- The 40 leading bits of a command frame: start 0, direction 1, index, argument (R91). -/
def cmdHead (index : BitVec 6) (arg : Word) : BitVec 40 :=
  0b01#2 ++ index ++ arg

/-- `cmd_frame(index, arg)` (R92). -/
def cmdFrame (index : BitVec 6) (arg : Word) : Frame :=
  cmdHead index arg ++ crc7 (bitsMsb (cmdHead index arg)) ++ 1#1

/-- The index field of a frame, bits 45:40. -/
def frameIndex (f : Frame) : BitVec 6 := f.extractLsb' 40 6

/-- The argument or payload field of a frame, bits 39:8. -/
def frameArg (f : Frame) : Word := f.extractLsb' 8 32

/-- The CRC field of a 48-bit frame, bits 7:1. -/
def frameCrc (f : Frame) : BitVec 7 := f.extractLsb' 1 7

/-! The response formats (R102). -/

/-- A 48-bit response is expected. -/
def RspFormat.is48 : RspFormat → Bool
  | .none => false
  | .r1 => true
  | .r1b => true
  | .r2 => false
  | .r3 => true
  | .r6 => true
  | .r7 => true

/-- The transport checks the response's CRC. -/
def RspFormat.checksCrc : RspFormat → Bool
  | .none => false
  | .r1 => true
  | .r1b => true
  | .r2 => true
  | .r3 => false
  | .r6 => true
  | .r7 => true

/-- The transport compares the response's index field with the command's index. -/
def RspFormat.checksIndex : RspFormat → Bool
  | .none => false
  | .r1 => true
  | .r1b => true
  | .r2 => false
  | .r3 => false
  | .r6 => true
  | .r7 => true

/-- The tag codes of R100. -/
def RspFormat.code : RspFormat → BitVec 3
  | .none => 0
  | .r1 => 1
  | .r1b => 2
  | .r2 => 3
  | .r3 => 4
  | .r6 => 5
  | .r7 => 6

/-- The format of a tag code; code 7 is reserved (R100, R116). -/
def RspFormat.ofCode (c : BitVec 3) : Option RspFormat :=
  if c = 0 then some RspFormat.none
  else if c = 1 then some .r1
  else if c = 2 then some .r1b
  else if c = 3 then some .r2
  else if c = 4 then some .r3
  else if c = 5 then some .r6
  else if c = 6 then some .r7
  else Option.none

/-! Response frames (R93, R94). -/

/-- The 40 leading bits of a 48-bit response: start 0, direction 0, index, payload (R93). -/
def rspHead (index : BitVec 6) (payload : Word) : BitVec 40 :=
  0b00#2 ++ index ++ payload

/-- The 48-bit response frame with the given fields (R93). -/
def rspFrame (index : BitVec 6) (payload : Word) (crc : BitVec 7) : Frame :=
  rspHead index payload ++ crc ++ 1#1

/-- A well-framed 48-bit response as a record of fields (R110, R112). -/
def Rsp.ofFrame (f : Frame) : Rsp :=
  .rsp48 (frameIndex f) (frameArg f) (frameCrc f)

/-- The 136-bit response frame: header `0b00111111`, then the register content (R94). -/
def rsp136Frame (content : Reg128) : BitVec 136 :=
  0x3F#8 ++ content

/-- The CRC the transport computes for a response: over bits 47:8 of a 48-bit frame, over bits 127:8 of a
136-bit frame (R93, R94, R140). -/
def Rsp.computedCrc : Rsp → BitVec 7
  | .noResponse => 0
  | .rsp48 index payload _ => crc7 (bitsMsb (rspHead index payload))
  | .rsp136 content => crc7 (bitsMsb (content.extractLsb' 8 120))

/-- The received CRC field (R93, R94). -/
def Rsp.crcField : Rsp → BitVec 7
  | .noResponse => 0
  | .rsp48 _ _ crc => crc
  | .rsp136 content => content.extractLsb' 1 7

/-- The index field; bits 133:128 of a 136-bit response are `0b111111` and are never compared (R94, R110). -/
def Rsp.indexField : Rsp → BitVec 6
  | .noResponse => 0
  | .rsp48 index _ _ => index
  | .rsp136 _ => 0b111111

/-- The answer is of the length the format expects (R112). -/
def Rsp.fits : Rsp → RspFormat → Bool
  | .noResponse, _ => true
  | .rsp48 _ _ _, fmt => fmt.is48
  | .rsp136 _, fmt => decide (fmt = .r2)

/-! Data frames as bit strings (R114, R115). -/

/-- The 1-bit data frame on line 0 (R114). -/
def dataFrame1 (bytes : Block) (crc : BitVec 16) : List Bool :=
  false :: bitsOfBytes bytes.toList ++ bitsMsb crc ++ [true]

/-- Line `j` of the 4-bit data frame (R115). -/
def dataFrame4 (bytes : Block) (j : Nat) (crc : BitVec 16) : List Bool :=
  false :: line4 bytes.toList j ++ bitsMsb crc ++ [true]

/-- Whether a data part's checksums are the computed ones (R114, R115). -/
def DataAns.crcGood : DataAns → Bool
  | .noData => true
  | .data bytes crc => decide (crc = crc16 bytes.toList)
  | .data4 bytes crc3 crc2 crc1 crc0 => decide ((crc3, crc2, crc1, crc0) = lineCrcs bytes.toList)

/-- Whether a data part is of the form the bus width calls for (R112): `Data` on the 1-bit bus, `Data4` on the
4-bit bus. -/
def DataAns.fits : DataAns → Bool → Bool
  | .noData, _ => true
  | .data _ _, wide => !wide
  | .data4 _ _ _ _ _, wide => wide

/-! Frame lengths in card-clock periods (70_reset_and_hazards.md R351). -/

/-- The length of a response frame. -/
def RspFormat.frameLength (f : RspFormat) : Nat :=
  if f = .none then 0 else if f = .r2 then 136 else 48

/-- The length of a data frame on the 1-bit or the 4-bit bus. -/
def dataFrameLength (wide : Bool) : Nat :=
  if wide then 1 + 1024 + 16 + 1 else 1 + 4096 + 16 + 1

end Sys2Proof.Machine
end

