-- ==== Sys2Proof/Machine/Table.lean ====
section
/-! DEFINITION. The command table `encode(name)` (30_encoding.md R101, 40_command_model.md R131) and the
16-bit descriptor word (R100). -/

namespace Sys2Proof.Machine

/-- The fixed descriptor of each command name (R101; formats D5, flags D6). -/
def Cmd.descriptor : Cmd → Descriptor
  | .goIdleState      => ⟨0,  .none, true,  false, false, false, false⟩
  | .sendOpCond       => ⟨1,  .r3,   true,  false, false, false, false⟩
  | .allSendCid       => ⟨2,  .r2,   true,  false, false, false, false⟩
  | .setRelativeAddr  => ⟨3,  .r1,   true,  false, false, false, false⟩
  | .sendRelativeAddr => ⟨3,  .r6,   true,  false, false, false, false⟩
  | .setBusWidth      => ⟨6,  .r1,   false, true,  false, false, false⟩
  | .selectCard       => ⟨7,  .r1b,  false, false, false, false, true⟩
  | .deselectCard     => ⟨7,  .none, false, false, false, false, false⟩
  | .sendIfCond       => ⟨8,  .r7,   true,  false, false, false, false⟩
  | .sendCsd          => ⟨9,  .r2,   true,  false, false, false, false⟩
  | .stopTransmission => ⟨12, .r1b,  false, false, false, false, true⟩
  | .readSingleBlock  => ⟨17, .r1,   false, false, true,  false, false⟩
  | .setBlocklen      => ⟨16, .r1,   false, false, false, false, false⟩
  | .sdSendOpCond     => ⟨41, .r3,   true,  true,  false, false, false⟩
  | .appCmd           => ⟨55, .r1,   false, false, false, false, false⟩

/-- Every row of the table. -/
def Cmd.all : List Cmd :=
  [.goIdleState, .sendOpCond, .allSendCid, .setRelativeAddr, .sendRelativeAddr, .setBusWidth, .selectCard,
    .deselectCard, .sendIfCond, .sendCsd, .stopTransmission, .readSingleBlock, .setBlocklen, .sdSendOpCond,
    .appCmd]

/-- The 16-bit descriptor word: 5:0 index, 8:6 tag, 9 LS, 10 ACMD, 11 DATA, 12 WRITE, 13 BUSY (R100). -/
def Descriptor.toWord (d : Descriptor) : BitVec 16 :=
  0#2 ++ BitVec.ofBool d.busy ++ BitVec.ofBool d.write ++ BitVec.ofBool d.data ++ BitVec.ofBool d.acmd
    ++ BitVec.ofBool d.ls ++ d.rsp.code ++ d.index

/-- The descriptor of a word; `none` for the reserved tag code 7, the write flag, and bits 15:14 (R116). -/
def Descriptor.ofWord (w : BitVec 16) : Option Descriptor :=
  if w.extractLsb' 14 2 ≠ 0#2 ∨ w.getLsbD 12 then none
  else (RspFormat.ofCode (w.extractLsb' 6 3)).map fun rsp =>
    { index := w.extractLsb' 0 6, rsp, ls := w.getLsbD 9, acmd := w.getLsbD 10, data := w.getLsbD 11,
      write := false, busy := w.getLsbD 13 }

/-- The bits of a frame that the command's row of spec/opcode_table.json fixes. -/
def Cmd.mask : Cmd → Frame
  | .goIdleState => 0xFFFFFFFFFF01
  | .sendOpCond => 0xFF0000000001
  | .allSendCid => 0xFFFFFFFFFF01
  | .setRelativeAddr => 0xFFFFFFFFFF01
  | .sendRelativeAddr => 0xFFFFFFFFFF01
  | .setBusWidth => 0xFFFFFFFFFF01
  | .selectCard => 0xFF0000000001
  | .deselectCard => 0xFFFFFFFFFF01
  | .sendIfCond => 0xFFFFFFFFFF01
  | .sendCsd => 0xFF0000000001
  | .stopTransmission => 0xFFFFFFFFFF01
  | .readSingleBlock => 0xFF000001FF01
  | .setBlocklen => 0xFFFFFFFFFF01
  | .sdSendOpCond => 0xFF0000000001
  | .appCmd => 0xFF0000000001

/-- The values of those bits (the row's `match`). -/
def Cmd.pattern : Cmd → Frame
  | .goIdleState => 0x400000000001
  | .sendOpCond => 0x410000000001
  | .allSendCid => 0x420000000001
  | .setRelativeAddr => 0x430001000001
  | .sendRelativeAddr => 0x430000000001
  | .setBusWidth => 0x460000000201
  | .selectCard => 0x470000000001
  | .deselectCard => 0x470000000001
  | .sendIfCond => 0x48000001AA01
  | .sendCsd => 0x490000000001
  | .stopTransmission => 0x4C0000000001
  | .readSingleBlock => 0x510000000001
  | .setBlocklen => 0x500000020001
  | .sdSendOpCond => 0x690000000001
  | .appCmd => 0x770000000001

/-- The fixed arguments (R105, R107). -/
def argMmcRca : Word := Config.mmcRca ++ 0#16
/-- SET_BLOCKLEN's argument, the working block size. -/
def argBlocklen : Word := 0x00000200

/-- `rca << 16` as a 32-bit argument (R105). -/
def rcaArg (rca : BitVec 16) : Word := rca ++ 0#16

/-- The command row of an instruction, with the argument it puts in the frame; `none` for a host operation. -/
def cmdOf : Instr → Option (Cmd × Word)
  | .goIdleState => some (.goIdleState, 0)
  | .sendOpCond arg => some (.sendOpCond, arg)
  | .allSendCid => some (.allSendCid, 0)
  | .setRelativeAddr => some (.setRelativeAddr, argMmcRca)
  | .sendRelativeAddr => some (.sendRelativeAddr, 0)
  | .setBusWidth => some (.setBusWidth, Config.busWidthArg)
  | .selectCard arg => some (.selectCard, arg)
  | .deselectCard => some (.deselectCard, 0)
  | .sendIfCond => some (.sendIfCond, Config.ifCondArg)
  | .sendCsd arg => some (.sendCsd, arg)
  | .stopTransmission => some (.stopTransmission, 0)
  | .setBlocklen => some (.setBlocklen, argBlocklen)
  | .readSingleBlock addr => some (.readSingleBlock, addr)
  | .sdSendOpCond arg => some (.sdSendOpCond, arg)
  | .appCmd arg => some (.appCmd, arg)
  | .acquire => none
  | .openDesc _ => none
  | .read _ _ _ => none
  | .seek _ _ => none

end Sys2Proof.Machine
end

