-- ==== Sys2Proof/Machine/Operands.lean ====
section
/-! DEFINITION. The operand forms: what is read from a response, from the CSD, from a card address and from a
descriptor (40_command_model.md R132 to R138, R144; 20_memory.md R61, R66, R67; 44_block_io.md R273). -/

namespace Sys2Proof.Machine

/-- `decodeOCR(RB)` (R132). -/
def decodeOcr (rb : RspBuf) : Word := be32 rb.toList 0

/-- `decodeRCA(RB)` (R133). -/
def decodeRca (rb : RspBuf) : BitVec 16 := be16 rb.toList 0

/-- `ocr_ready(ocr)`: the power-up bit, bit 31 (R144). -/
def ocrReady (ocr : Word) : Bool := ocr.getLsbD 31

/-- The `RB` content a response leaves (R111, R196): a 136-bit response whole; the payload of a 48-bit response
in bytes 0 to 3 and 8 to 11, the other bytes taken from `pad`. -/
def assembleRb (pad : Reg128) : Rsp → RspBuf
  | .noResponse => regBytes pad
  | .rsp48 _ p _ =>
    #v[p.extractLsb' 24 8, p.extractLsb' 16 8, p.extractLsb' 8 8, p.extractLsb' 0 8,
      byteOf pad 4, byteOf pad 5, byteOf pad 6, byteOf pad 7,
      p.extractLsb' 24 8, p.extractLsb' 16 8, p.extractLsb' 8 8, p.extractLsb' 0 8,
      byteOf pad 12, byteOf pad 13, byteOf pad 14, byteOf pad 15]
  | .rsp136 content => regBytes content

/-! The CSD (R137, R138). -/

/-- `read_bl_len`, register bits 83:80. -/
def csdReadBlLen (csd : Reg128) : Nat := bitField (bytesVal (bytes16 csd)) 80 4
/-- `c_size`, register bits 73:62. -/
def csdCSize (csd : Reg128) : Nat := bitField (bytesVal (bytes16 csd)) 62 12
/-- `c_size_mult`, register bits 49:47. -/
def csdCSizeMult (csd : Reg128) : Nat := bitField (bytesVal (bytes16 csd)) 47 3

/-- `block_len`, in the naturals (R26, R138). -/
def csdBlockLen (csd : Reg128) : Nat := 2 ^ csdReadBlLen csd
/-- `block_count`, in the naturals (R27, R138). -/
def csdBlockCount (csd : Reg128) : Nat := (csdCSize csd + 1) * 2 ^ (csdCSizeMult csd + 2)
/-- `device_size`, in the naturals (R28, R138). -/
def csdDeviceSize (csd : Reg128) : Nat := csdBlockCount csd * csdBlockLen csd

/-! Card addresses. -/

/-- `block_base(a)` (R67): a mask, not a modulus (R271). -/
def blockBase (a : Word) : Word := a &&& 0xFFFFFE00#32

/-- `block_off(a)` (R67). -/
def blockOff (a : Word) : Nat := (a &&& 0x000001FF#32).toNat

/-- `in_window(a)` for a cache base (R66): the sentinel first, then the comparisons in the naturals. -/
def inWindow (base a : Word) : Bool :=
  decide (base ≠ Config.cacheInvalid) && decide (base.toNat ≤ a.toNat)
    && decide (a.toNat < base.toNat + Config.workBlock)

/-! Descriptors. -/

/-- A well-formed descriptor (R36, R273). -/
def descWf (d : Desc) : Bool :=
  decide (d.start.toNat + d.length.toNat ≤ 2 ^ 32) && decide (d.cursor.toNat ≤ d.length.toNat)

/-- The length of a READ clipped to the descriptor's remaining extent (R261). -/
def clip (d : Desc) (length : Word) : Nat :=
  min length.toNat (d.length.toNat - d.cursor.toNat)

/-- The card address of a position of the extent, computed in the naturals (R61, R262). -/
def cardAddr (d : Desc) (done : Nat) : Word :=
  BitVec.ofNat 32 (d.start.toNat + d.cursor.toNat + done)

/-- The bytes one turn of the READ loop copies: `min(512 - block_off(a), n - done)` (R263). -/
def copyLen (a : Word) (left : Nat) : Nat :=
  min (Config.workBlock - blockOff a) left

end Sys2Proof.Machine
end

