-- ==== Sys2Proof/Machine/Ops.lean ====
section
/-! DEFINITION. The named operations over the state: time and free values, the caller's buffer, the session and
the cache, the failure entry of 60_exceptions.md R299 and the end of a command (R200, R201). There is no return
from a failure (R301). -/

namespace Sys2Proof.Machine

/-- An operation inside the block: a value and a state, or a refusal. -/
abbrev Res (α : Type) := Except Refusal (α × State)

/-! Memory: a byte-addressed space in canonical form (assumption log 4). An unlisted address reads as 0. -/

/-- The byte at an address. -/
def Memory.get : Memory → Nat → Byte
  | [], _ => 0
  | (x, y) :: m, a => if a = x then y else Memory.get m a

/-- Writing a byte; writing 0 removes the cell. -/
def Memory.set : Memory → Nat → Byte → Memory
  | [], a, b => if b = 0 then [] else [(a, b)]
  | (x, y) :: m, a, b =>
    if a < x then if b = 0 then (x, y) :: m else (a, b) :: (x, y) :: m
    else if a = x then if b = 0 then m else (a, b) :: m
    else (x, y) :: Memory.set m a b

/-- Writing bytes at ascending addresses (R69, R263). -/
def Memory.setAll : Memory → Nat → List Byte → Memory
  | m, _, [] => m
  | m, a, b :: bs => Memory.setAll (Memory.set m a b) (a + 1) bs

/-- The canonical form: addresses strictly rising, no cell equal to what an unlisted address reads as. -/
def Memory.wf (m : Memory) : Bool :=
  decide (m.Pairwise fun c c' => c.1 < c'.1) && m.all fun c => c.2 != 0

/-! Time and free values. -/

/-- The timer moves forward by at least `lb` milliseconds, and by any amount more (R42, R203, D18): the next
advance the TIMER agent has, or a free value. -/
def State.advance (lb : Nat) (s : State) : State :=
  { s with
    nowMs := s.nowMs + lb + s.ticks.headD (Config.freeTick s.draws)
    ticks := s.ticks.tail
    draws := s.draws + 1 }

/-- Recording what the block does on its outward side. -/
def State.emit (k : EventKind) (s : State) : State :=
  { s with trace := ⟨k, s.nowMs⟩ :: s.trace }

/-- `delay_ms(n)` (R15). -/
def delayMs (n : Nat) (s : State) : State := (s.emit (.delayMs n)).advance n

/-- `delay_us(n)` (R15): at least `n` microseconds pass "on that timer", which counts milliseconds, so at least
`n / 1000` of them, rounded up (R340; DEDUCED, assumption log 12). -/
def delayUs (n : Nat) (s : State) : State := (s.emit (.delayUs n)).advance ((n + 999) / 1000)

/-! Session and cache. -/

/-- `cache_invalidate()` (R48): the buffer is left as it is. -/
def cacheInvalidate (s : State) : State :=
  { s with cache := { s.cache with base := Config.cacheInvalid } }

/-- The buffer becomes the window of a block (R269). -/
def cacheFill (base : Word) (s : State) : State :=
  { s with cache := { s.cache with base := base } }

/-- `session_clear()` (R47). -/
def sessionClear (s : State) : State :=
  cacheInvalidate { s with session := Session.zero, busWide := false }

/-- Writing what the acquisition parses from the CSD and marking the session acquired, `finish()` of R231. -/
def finishParse (s : State) : State :=
  { s with
    session :=
      { s.session with
        blockLen := BitVec.ofNat 32 (csdBlockLen s.session.csd)
        blockCount := BitVec.ofNat 32 (csdBlockCount s.session.csd)
        deviceSize := BitVec.ofNat 64 (csdDeviceSize s.session.csd)
        acquired := true } }

/-- The bytes of the cache buffer from an offset (R263). -/
def cacheSlice (b : Block) (off k : Nat) : List Byte :=
  (b.toList.drop off).take k

/-! A command's failure and its end. -/

/-- A failure of kind `k` is detected: its flag is set (R299, R290). -/
def raise (k : FailKind) (s : State) : State :=
  { s with st := s.st.raise k }

/-- `RB` becomes unspecified (R30, R201): a free value. -/
def clobberRb (s : State) : State :=
  { s with rb := Config.freeRb s.draws, draws := s.draws + 1 }

/-- The destination of a data command becomes unspecified (R198, R201): a free value. -/
def clobberDest (s : State) : State :=
  { s with cache := { s.cache with buf := Config.freeBlock s.draws }, draws := s.draws + 1 }

/-- Step 6 (R200): every flag cleared; in realization A the card clock is stopped. -/
def clearFlags (s : State) : State :=
  { s with
    st := Flags.clear
    clkRun := if s.cfg.realization = .bitPulse then false else s.clkRun }

/-- `finish(k)` (R201): the destination is unspecified after a failed data command; `RB` is unspecified after
a failure or a command without a response; then step 6 and the status of `k`. -/
def finish (d : Descriptor) (k : Option FailKind) (s : State) : Status × State :=
  let s := if k.isSome && d.data then clobberDest s else s
  let s := if k.isSome || decide (d.rsp = .none) then clobberRb s else s
  (statusOf k, clearFlags s)

/-! Between operations. -/

/-- No host operation is in progress (R50 h): `acq_state` is Idle, Done or Failed and `rf_state` is RfIdle. -/
def State.between (s : State) : Bool :=
  (decide (s.acqState = .idle) || decide (s.acqState = .done) || decide (s.acqState = .failed))
    && decide (s.rfState = .idle)

/-- What an operation inside the block answers, as an outcome of a step that returns `result`. -/
def deliver (f : Status → Result) : Res Status → Host.Outcome State Fault Refusal
  | .error r => .refused r
  | .ok (st, s) => .next { s with result := f st }

end Sys2Proof.Machine
end

