-- ==== Sys2Proof/Machine/Transport.lean ====
section
/-! DEFINITION. The Host Transport: `execute` and its six steps (42_host_transport.md R190 to R204). -/

namespace Sys2Proof.Machine

/-- The clock a command runs at: the identification rate if `LS`, else the operating rate (R191, R103). -/
def clockOf (ls : Bool) : ClkSel := if ls then .ident else .oper

/-- Step 1 (R191): select the clock; a change of rate is followed by the settle delay, before the first frame. -/
def selectClock (ls : Bool) (s : State) : State :=
  if s.clkSel = clockOf ls then s
  else delayUs s.cfg.clkSettleUs (State.emit (.clock (clockOf ls)) { s with clkSel := clockOf ls })

/-- The card's next answer: the CARD agent's, and no response where it has none (assumption log 1). -/
def nextAnswer (s : State) : Answer :=
  s.card.headD ⟨.noResponse, false, .noData⟩

/-- `card(frame)` (R15): the frame goes out, `ST.cmd_done` is set when it has been sent (R192), the card's answer
is taken. In realization A the card clock runs from here (R205). -/
def sendFrame (index : BitVec 6) (arg : Word) (s : State) : State :=
  State.emit (.frame (cmdFrame index arg) s.clkSel)
    { s with
      clkRun := if s.cfg.realization = .bitPulse then true else s.clkRun
      card := s.card.tail
      st := { s.st with cmdDone := true } }

/-- The checks of a response (R110, R195) in their priority order (R296). -/
def checkRsp (index : BitVec 6) (fmt : RspFormat) (rsp : Rsp) : Option FailKind :=
  if fmt.checksCrc && decide (rsp.crcField ≠ rsp.computedCrc) then some .rspCrc
  else if fmt.checksIndex && decide (rsp.indexField ≠ index) then some .cmdIndex
  else none

/-- Storing a response in `RB` (R111, R196); the bytes the format leaves unspecified are a free value. -/
def storeRsp (rsp : Rsp) (s : State) : State :=
  { s with rb := assembleRb (Config.freePad s.draws) rsp, draws := s.draws + 1 }

/-- The busy wait of R197 after a good response. -/
def busyWait (busy : Bool) (ans : Answer) (s : State) : Option FailKind × State :=
  if busy && !ans.busyReleased then (some .dataTimeout, raise .dataTimeout (s.advance Config.tBusyMs))
  else (none, s)

/-- What follows once a response of the right length has arrived: checks, `RB`, busy wait (R192). -/
def takeRsp (index : BitVec 6) (fmt : RspFormat) (busy : Bool) (ans : Answer) (s : State) :
    Option FailKind × State :=
  match checkRsp index fmt ans.rsp with
  | some k => (some k, raise k s)
  | none => busyWait busy ans (storeRsp ans.rsp s)

/-- `exchange(index, arg, rsp, busy)` (R192). -/
def exchange (index : BitVec 6) (arg : Word) (fmt : RspFormat) (busy : Bool) (s : State) :
    Res (Option FailKind) :=
  let ans := nextAnswer s
  let s := sendFrame index arg s
  if fmt = .none then .ok (none, s.advance 0)
  else if ans.rsp = .noResponse then .ok (some .cmdTimeout, raise .cmdTimeout (s.advance Config.tCmdMs))
  else if ans.rsp.fits fmt then .ok (takeRsp index fmt busy ans (s.advance 0))
  else .error .answerLength

/-- Step 2 (R193): the APP_CMD prefix with the current RCA. -/
def prefixPhase (acmd : Bool) (s : State) : Res (Option FailKind) :=
  if acmd then exchange Cmd.appCmd.descriptor.index (rcaArg s.session.rca) .r1 false s else .ok (none, s)

/-- The block's bytes land in the destination, which is always `CACHE.buf` (R172, R198). -/
def storeData (bytes : Block) (s : State) : State :=
  { s with
    cache := { s.cache with buf := bytes }
    st := { s.st with dataReady := true, xferDone := true } }

/-- A data frame of the right form has arrived: its checksum, then the destination (R198). -/
def takeData (bytes : Block) (good : Bool) (s : State) : Option FailKind × State :=
  if good then (none, storeData bytes s)
  else (some .dataCrc, raise .dataCrc { s with st := { s.st with dataReady := true } })

/-- Step 5 (R198), with the answer of step 3. -/
def dataPhase (ans : DataAns) (s : State) : Res (Option FailKind) :=
  if ans.fits s.busWide then
    match ans with
    | .noData => .ok (some .dataTimeout, raise .dataTimeout (s.advance Config.tDataMs))
    | .data bytes crc => .ok (takeData bytes (DataAns.data bytes crc).crcGood (s.advance 0))
    | .data4 bytes c3 c2 c1 c0 => .ok (takeData bytes (DataAns.data4 bytes c3 c2 c1 c0).crcGood (s.advance 0))
  else .error .dataFormat

/-- Steps 3 to 6 of a command (R194 to R201). -/
def mainPhase (d : Descriptor) (arg : Word) (s : State) : Res Status :=
  match exchange d.index arg d.rsp d.busy s with
  | .error r => .error r
  | .ok (some k, t) => .ok (finish d (some k) t)
  | .ok (none, t) =>
    if d.data then
      match dataPhase (nextAnswer s).data t with
      | .error r => .error r
      | .ok (k, u) => .ok (finish d k u)
    else .ok (finish d none t)

/-- `execute(descriptor, argument, dest?)` (R190, R202). `dest` says whether a destination was given; the one
destination there is, is `CACHE.buf` (R172). -/
def execute (d : Descriptor) (arg : Word) (dest : Bool) (s : State) : Res Status :=
  if d.write then .error .writeFlag
  else if d.data && !dest then .error .noDestination
  else
    match prefixPhase d.acmd (selectClock d.ls { s with cd := ⟨d, arg⟩ }) with
    | .error r => .error r
    | .ok (some k, t) => .ok (finish d (some k) t)
    | .ok (none, t) => mainPhase d arg t

/-- `execute(NAME, arg)` for a name of the command table; a data command has `CACHE.buf` as destination. -/
def executeCmd (c : Cmd) (arg : Word) (s : State) : Res Status :=
  execute c.descriptor arg c.descriptor.data s

end Sys2Proof.Machine
end

