-- ==== Sys2Proof/Machine/Acquisition.lean ====
section
/-! DEFINITION. The Acquisition State Machine and ACQUIRE (43_acquisition.md R220 to R248): one definition per
state of `acq_state`, `acqStep` the rule of the current state, `execAcquire` the whole operation, which is one
step for the host (R73). -/

namespace Sys2Proof.Machine

/-- `op_cond(b, arg)` (R226). -/
def opCond : Branch → Word → State → Res Status
  | .sd, arg, s => executeCmd .sdSendOpCond arg s
  | .mmc, arg, s => executeCmd .sendOpCond arg s

/-- How a try of a loop ends: the power-up bit was seen, a ceiling was reached, or neither. -/
inductive TryEnd where
  | success | failure | again
  deriving DecidableEq, Repr

/-- One try of the poll loop (R227): delay, command with argument 0, count, look at the OCR. -/
def pollTry (b : Branch) (s : State) : Res TryEnd :=
  match opCond b 0 (delayMs Config.pollSpacingMs s) with
  | .error r => .error r
  | .ok (st, t) =>
    let t := { t with tries := t.tries + 1 }
    if st = .ok then
      let t := { t with ocr := decodeOcr t.rb }
      .ok (if ocrReady t.ocr then .success else .again, t)
    else .ok (.again, t)

/-- The turns of the poll loop that are left (R227). -/
def pollTurns (b : Branch) : Nat → State → Res Bool
  | 0, s => .ok (false, s)
  | n + 1, s =>
    match pollTry b s with
    | .error r => .error r
    | .ok (.again, t) => pollTurns b n t
    | .ok (.success, t) => .ok (true, t)
    | .ok (.failure, t) => .ok (false, t)

/-- `poll_loop(b)` (R227): `tries` counts up from 0 and the loop ends at `POLL_TRIES`. -/
def pollLoop (b : Branch) (s : State) : Res Bool :=
  pollTurns b Config.pollTries { s with tries := 0 }

/-- Either ceiling of the negotiation loop is reached (R228, R229). -/
def negCeiling (s : State) : Bool :=
  decide (s.cfg.negMaxTries ≤ s.tries) || decide (s.cfg.negMaxMs ≤ s.nowMs - s.negT0)

/-- The elapsed time of the negotiation, saturated at `2^32 - 1` (R228, R29). -/
def negElapsed (s : State) : Word :=
  BitVec.ofNat 32 (min (s.nowMs - s.negT0) (2 ^ 32 - 1))

/-- One try of the negotiation loop (R228), up to and without the delay after it. -/
def negTry (b : Branch) (s : State) : Res TryEnd :=
  match opCond b s.negArg s with
  | .error r => .error r
  | .ok (st, t) =>
    let t := { t with tries := t.tries + 1 }
    let t := if st = .ok then { t with ocr := decodeOcr t.rb } else t
    if st = .ok ∧ ocrReady t.ocr then
      .ok (.success, { t with session := { t.session with acquireTimeMs := negElapsed t } })
    else .ok (if negCeiling t then .failure else .again, t)

/-- The turns of the negotiation loop (R228). The first argument bounds the turns; `negCeiling` ends the loop
before it runs out, as `tries` counts every turn (R229). R228's pseudocode looks at the ceilings before the delay only,
R229 has no new try start once `NEG_MAX_MS` have passed, and nothing says which prevails where the ceiling is reached
during the delay: the model leaves it open, `negRecheck` says which the implementation does (DESIGN CHOICE, assumption
log 24). -/
def negTurns (b : Branch) : Nat → State → Res Bool
  | 0, s => .ok (false, s)
  | n + 1, s =>
    match negTry b s with
    | .error r => .error r
    | .ok (.success, t) => .ok (true, t)
    | .ok (.failure, t) => .ok (false, t)
    | .ok (.again, t) =>
      let u := delayMs Config.negDelayMs t
      if u.cfg.negRecheck && negCeiling u then .ok (false, u) else negTurns b n u

/-- `negotiate_loop(b)` (R228): the mask is computed once, from the OCR that ended the previous state. -/
def negotiateLoop (b : Branch) (s : State) : Res Bool :=
  negTurns b (max 1 s.cfg.negMaxTries)
    { s with negArg := s.ocr &&& s.cfg.hostOcrMask, tries := 0, negT0 := s.nowMs }

/-- A loop state (R225, R232, R241, R242): on success the next state, on failure `Failed` (R237). -/
def afterLoop (next : AcqState) : Res Bool → Except Refusal State
  | .error r => .error r
  | .ok (ok, t) => .ok { t with acqState := if ok then next else .failed }

/-- `required(NAME, arg)` (R230): on `Ok` go on with `k`, on anything else the branch fails. -/
def required (c : Cmd) (arg : Word) (k : State → State) (s : State) : Except Refusal State :=
  match executeCmd c arg s with
  | .error r => .error r
  | .ok (st, t) => .ok (if st = .ok then k t else { t with acqState := .failed })

/-- State `Reset` (R221): both results are ignored. -/
def acqReset (s : State) : Except Refusal State :=
  match executeCmd .goIdleState 0 s with
  | .error r => .error r
  | .ok (_, t) =>
    if t.cfg.cmd8Enable then
      match executeCmd .sendIfCond Config.ifCondArg t with
      | .error r => .error r
      | .ok (_, u) => .ok { u with acqState := .trySdOpCond }
    else .ok { t with acqState := .trySdOpCond }

/-- State `TrySdOpCond` (R223), with the fall to the MMC branch (R238). -/
def acqTrySd (s : State) : Except Refusal State :=
  match opCond .sd 0 s with
  | .error r => .error r
  | .ok (st, t) =>
    if st = .ok then .ok { t with ocr := decodeOcr t.rb, acqState := .checkSdOcr }
    else if st = .timeout then
      .ok { sessionClear { t with sdTimedOut := true } with acqState := .tryMmcOpCond }
    else .ok { t with acqState := .failed }

/-- State `TryMmcOpCond` (R239). -/
def acqTryMmc (s : State) : Except Refusal State :=
  match opCond .mmc 0 s with
  | .error r => .error r
  | .ok (st, t) =>
    if st = .ok then .ok { t with ocr := decodeOcr t.rb, acqState := .checkMmcOcr }
    else if st = .timeout then .ok { t with mmcTimedOut := true, acqState := .failed }
    else .ok { t with acqState := .failed }

/-- States `CheckSdOcr` and `CheckMmcOcr` (R224, R240): no command. -/
def acqCheck (negotiate poll : AcqState) (s : State) : State :=
  { s with acqState := if ocrReady s.ocr then negotiate else poll }

/-- State `GetCidSd` or `GetCidMmc` (R233, R243). -/
def acqGetCid (next : AcqState) (s : State) : Except Refusal State :=
  required .allSendCid 0
    (fun t => { t with session := { t.session with cid := val128 t.rb }, acqState := next }) s

/-- State `GetRcaSd` (R234): the card's own RCA, 0 included. -/
def acqGetRca (s : State) : Except Refusal State :=
  required .sendRelativeAddr 0
    (fun t => { t with session := { t.session with rca := decodeRca t.rb }, acqState := .getCsdSd }) s

/-- State `SetRcaMmc` (R244): the fixed RCA, written after the card accepted the command. -/
def acqSetRca (s : State) : Except Refusal State :=
  required .setRelativeAddr argMmcRca
    (fun t => { t with session := { t.session with rca := Config.mmcRca }, acqState := .getCsdMmc }) s

/-- State `GetCsdSd` (R235, R236) or `GetCsdMmc` (R245, R246): `sd` says which. -/
def acqGetCsd (sd : Bool) (s : State) : Except Refusal State :=
  required .sendCsd (rcaArg s.session.rca)
    (fun t =>
      let u := finishParse { t with session := { t.session with csd := val128 t.rb } }
      { u with session := { u.session with sd := sd || u.session.sd }, acqState := .done }) s

/-- The rule of the current `acq_state` (R249); `Idle`, `Done` and `Failed` have none inside an ACQUIRE. -/
def acqStep (s : State) : Except Refusal State :=
  match s.acqState with
  | .idle => .ok s
  | .reset => acqReset s
  | .trySdOpCond => acqTrySd s
  | .checkSdOcr => .ok (acqCheck .negotiateSdOcr .pollSdOcr s)
  | .pollSdOcr => afterLoop .negotiateSdOcr (pollLoop .sd s)
  | .negotiateSdOcr => afterLoop .getCidSd (negotiateLoop .sd s)
  | .getCidSd => acqGetCid .getRcaSd s
  | .getRcaSd => acqGetRca s
  | .getCsdSd => acqGetCsd true s
  | .tryMmcOpCond => acqTryMmc s
  | .checkMmcOcr => .ok (acqCheck .negotiateMmcOcr .pollMmcOcr s)
  | .pollMmcOcr => afterLoop .negotiateMmcOcr (pollLoop .mmc s)
  | .negotiateMmcOcr => afterLoop .getCidMmc (negotiateLoop .mmc s)
  | .getCidMmc => acqGetCid .setRcaMmc s
  | .setRcaMmc => acqSetRca s
  | .getCsdMmc => acqGetCsd false s
  | .done => .ok s
  | .failed => .ok s

/-- The acquisition has ended (R33). -/
def AcqState.terminal (a : AcqState) : Bool :=
  decide (a = .done) || decide (a = .failed)

/-- "Repeat the rule of acq_state until acq_state is Done or Failed" (R220). -/
def acqRun : Nat → State → Except Refusal State
  | 0, s => .ok s
  | n + 1, s =>
    if s.acqState.terminal then .ok s
    else
      match acqStep s with
      | .error r => .error r
      | .ok t => acqRun n t

/-- More rules than any path from `Reset` to a terminal state runs (R249): the longest has nine. -/
def acqFuel : Nat := 12

/-- The rule of the terminal state (R247, R248). The working registers of the sequencer (`tries`, `ocr`, `neg_arg`, `neg_t0`,
the two time-out marks), which may hold any value outside an ACQUIRE (R35), keep what was last written: the model's
choice (DESIGN CHOICE, assumption log 25). -/
def acqEnd (s : State) : State :=
  if s.acqState = .done then { s with acqResult := .acquired }
  else
    { sessionClear s with
      acqResult := if s.sdTimedOut && s.mmcTimedOut then .noCard else .identifyFailed }

/-- The start of ACQUIRE (R220): the whole session is cleared first. -/
def acqStart (s : State) : State :=
  { sessionClear s with sdTimedOut := false, mmcTimedOut := false, acqState := .reset }

/-- ACQUIRE (R220). -/
def execAcquire (s : State) : Host.Outcome State Fault Refusal :=
  if s.between then
    match acqRun acqFuel (acqStart s) with
    | .error r => .refused r
    | .ok t => .next { acqEnd t with result := .acquired (acqEnd t).session.acquired }
  else .refused .operationInProgress

end Sys2Proof.Machine
end

