-- ==== Sys2Proof/Machine/BlockIo.lean ====
section
/-! DEFINITION. The Block I/O Engine: OPEN, READ with its refill, SEEK (44_block_io.md R260 to R273). Each is one
step for the host (R73). -/

namespace Sys2Proof.Machine

/-! The refill. -/

/-- `fail(st)` of R269: the refill ends, the cache stays empty. -/
def refillFail (st : Status) (s : State) : Status × State :=
  (st, { s with rfState := .idle })

/-- One step of the refill that must succeed: on `Ok` the next step, on anything else R269. -/
def refillThen (r : Res Status) (k : State → Res Status) : Res Status :=
  match r with
  | .error e => .error e
  | .ok (st, t) => if st = .ok then k t else .ok (refillFail st t)

/-- The refill's select (R265). -/
def refillSelect (s : State) : Res Status :=
  executeCmd .selectCard (rcaArg s.session.rca) { s with rfState := .select }

/-- The refill's bus width (R266): SD card and wide host only; `bus_wide` is written after `Ok`. -/
def refillBusWidth (s : State) : Res Status :=
  let s := { s with rfState := .busWidth }
  if s.session.sd && s.cfg.hostWide then
    match executeCmd .setBusWidth Config.busWidthArg s with
    | .error r => .error r
    | .ok (st, t) => .ok (st, if st = .ok then { t with busWide := true } else t)
  else .ok (.ok, s)

/-- The refill's block length (R267): always 512. -/
def refillBlockLen (s : State) : Res Status :=
  executeCmd .setBlocklen argBlocklen { s with rfState := .blockLen }

/-- The refill's read (R268). -/
def refillRead (b : Word) (s : State) : Res Status :=
  executeCmd .readSingleBlock b { s with rfState := .read }

/-- The refill's deselect (R265): it cannot fail, and its status is not looked at. -/
def refillDeselect (s : State) : Except Refusal State :=
  match executeCmd .deselectCard 0 { s with rfState := .deselect } with
  | .error r => .error r
  | .ok (_, t) => .ok t

/-- The successful end of the refill (R269). -/
def refillEnd (b : Word) (s : State) : Status × State :=
  (.ok, { cacheFill b s with rfState := .idle })

/-- `refill(a)` (R264). -/
def refill (a : Word) (s : State) : Res Status :=
  match refillDeselect (cacheInvalidate s) with
  | .error r => .error r
  | .ok t =>
    refillThen (refillSelect t) fun t =>
    refillThen (refillBusWidth t) fun t =>
    refillThen (refillBlockLen t) fun t =>
    refillThen (refillRead (blockBase a) t) fun t =>
    .ok (refillEnd (blockBase a) t)

/-! READ. -/

/-- `copy(a, done, n)` (R263): cache bytes into the caller's buffer, in ascending order. -/
def copyOut (a : Word) (done k : Nat) (s : State) : State :=
  { s with caller := s.caller.setAll done (cacheSlice s.cache.buf (blockOff a) k) }

/-- The card block of `a` is in the cache: at once, or after a refill (R262). -/
def ensureWindow (a : Word) (s : State) : Res Status :=
  if inWindow s.cache.base a then .ok (.ok, s) else refill a s

/-- The loop of R262, with `n - done` bytes left; every turn copies at least one byte (R263), so as many turns
as there are bytes are enough. The result is `done` and the status. -/
def readTurns (d : Desc) (n : Nat) : Nat → Nat → State → Res (Nat × Status)
  | 0, done, s => .ok ((done, .ok), s)
  | turns + 1, done, s =>
    if done < n then
      let a := cardAddr d done
      match ensureWindow a s with
      | .error r => .error r
      | .ok (st, t) =>
        if st = .ok then
          let k := copyLen a (n - done)
          readTurns d n turns (done + k) (copyOut a done k t)
        else .ok ((done, st), t)
    else .ok ((done, .ok), s)

/-- The end of a READ: count, status and new cursor, which the host-side descriptor takes (R262). `RB` keeps what the last
command left, its payload after `Ok` (R201, program P3's end state), where R274 calls it unspecified if any command ran:
the model's choice (DESIGN CHOICE, assumption log 26). -/
def readEnd (d : Desc) (count : Nat) (st : Status) (s : State) : State :=
  let cursor := BitVec.ofNat 32 (d.cursor.toNat + count)
  { s with result := .read (BitVec.ofNat 32 count) st cursor, desc := { d with cursor := cursor } }

/-- READ (R261 to R263); refused on a malformed descriptor or a short buffer (R273). -/
def execRead (d : Desc) (bufSize length : Word) (s : State) : Host.Outcome State Fault Refusal :=
  if s.between then
    if descWf d then
      if length.toNat ≤ bufSize.toNat then
        if s.session.acquired then
          match readTurns d (clip d length) (clip d length) 0 s with
          | .error r => .refused r
          | .ok ((count, st), t) => .next (readEnd d count st t)
        else .next (readEnd d 0 .genericFailure s)
      else .refused .shortBuffer
    else .refused .malformedDescriptor
  else .refused .operationInProgress

/-! OPEN and SEEK. -/

/-- OPEN (R260): a test only. -/
def execOpen (d : Desc) (s : State) : Host.Outcome State Fault Refusal :=
  if s.between then
    if descWf d then
      .next { s with result := .status (if s.session.acquired then .ok else .genericFailure) }
    else .refused .malformedDescriptor
  else .refused .operationInProgress

/-- The new cursor of a SEEK (R272): absolute, clamped to the end of the extent. -/
def seekCursor (d : Desc) (pos : Word) : Word :=
  if pos.toNat ≤ d.length.toNat then pos else d.length

/-- SEEK (R272). -/
def execSeek (d : Desc) (pos : Word) (s : State) : Host.Outcome State Fault Refusal :=
  if s.between then
    if descWf d then
      .next { s with result := .cursor (seekCursor d pos), desc := { d with cursor := seekCursor d pos } }
    else .refused .malformedDescriptor
  else .refused .operationInProgress

end Sys2Proof.Machine
end

