-- ==== Sys2Proof/Machine/Commands.lean ====
section
/-! DEFINITION. The meanings of the fifteen card commands (41_card_commands.md R161 to R175): each is
`execute(NAME, arg)`, and its status is the step's result. What an issuing sequencer does with the response
stands in Acquisition.lean and BlockIo.lean; READ_SINGLE_BLOCK alone brings the refill's care for the cache with
it. -/

namespace Sys2Proof.Machine

/-- GO_IDLE_STATE, CMD0 (R161). -/
def execGoIdleState (s : State) : Host.Outcome State Fault Refusal :=
  deliver .status (executeCmd .goIdleState 0 s)

/-- SEND_OP_COND, CMD1 (R162). -/
def execSendOpCond (arg : Word) (s : State) : Host.Outcome State Fault Refusal :=
  deliver .status (executeCmd .sendOpCond arg s)

/-- ALL_SEND_CID, CMD2 (R163). -/
def execAllSendCid (s : State) : Host.Outcome State Fault Refusal :=
  deliver .status (executeCmd .allSendCid 0 s)

/-- SET_RELATIVE_ADDR, CMD3 of the MMC branch (R164). -/
def execSetRelativeAddr (s : State) : Host.Outcome State Fault Refusal :=
  deliver .status (executeCmd .setRelativeAddr argMmcRca s)

/-- SEND_RELATIVE_ADDR, CMD3 of the SD branch (R165). -/
def execSendRelativeAddr (s : State) : Host.Outcome State Fault Refusal :=
  deliver .status (executeCmd .sendRelativeAddr 0 s)

/-- SET_BUS_WIDTH, ACMD6 (R166). -/
def execSetBusWidth (s : State) : Host.Outcome State Fault Refusal :=
  deliver .status (executeCmd .setBusWidth Config.busWidthArg s)

/-- SELECT_CARD, CMD7 with an RCA (R167). -/
def execSelectCard (arg : Word) (s : State) : Host.Outcome State Fault Refusal :=
  deliver .status (executeCmd .selectCard arg s)

/-- DESELECT_CARD, CMD7 with RCA 0 (R168). -/
def execDeselectCard (s : State) : Host.Outcome State Fault Refusal :=
  deliver .status (executeCmd .deselectCard 0 s)

/-- SEND_IF_COND, CMD8 (R169). -/
def execSendIfCond (s : State) : Host.Outcome State Fault Refusal :=
  deliver .status (executeCmd .sendIfCond Config.ifCondArg s)

/-- SEND_CSD, CMD9 (R170). -/
def execSendCsd (arg : Word) (s : State) : Host.Outcome State Fault Refusal :=
  deliver .status (executeCmd .sendCsd arg s)

/-- STOP_TRANSMISSION, CMD12 (R171). -/
def execStopTransmission (s : State) : Host.Outcome State Fault Refusal :=
  deliver .status (executeCmd .stopTransmission 0 s)

/-- SET_BLOCKLEN, CMD16 (R173). -/
def execSetBlocklen (s : State) : Host.Outcome State Fault Refusal :=
  deliver .status (executeCmd .setBlocklen argBlocklen s)

/-- READ_SINGLE_BLOCK with the cache kept coherent, as the refill that issues it does (R264, R268, R269): the cache is
invalidated first and stays so after a failure (R172), and after `Ok` it is the window of the block read, if `addr` can
be a base (R31) and a card is acquired (R50 f). That a command alone acts as the read step of a refill is the model's
(DESIGN CHOICE, assumption log 10): only a refill writes the cache (R31, R79). -/
def readIntoCache (addr : Word) (s : State) : Res Status :=
  match executeCmd .readSingleBlock addr (cacheInvalidate s) with
  | .error r => .error r
  | .ok (st, t) =>
    .ok (st, if st = .ok ∧ t.session.acquired = true ∧ blockBase addr = addr then cacheFill addr t else t)

/-- READ_SINGLE_BLOCK, CMD17, into `CACHE.buf` (R172). -/
def execReadSingleBlock (addr : Word) (s : State) : Host.Outcome State Fault Refusal :=
  deliver .status (readIntoCache addr s)

/-- SD_SEND_OP_COND, ACMD41 (R174). -/
def execSdSendOpCond (arg : Word) (s : State) : Host.Outcome State Fault Refusal :=
  deliver .status (executeCmd .sdSendOpCond arg s)

/-- APP_CMD, CMD55 (R175). -/
def execAppCmd (arg : Word) (s : State) : Host.Outcome State Fault Refusal :=
  deliver .status (executeCmd .appCmd arg s)

end Sys2Proof.Machine
end

