-- ==== Sys2Proof/Machine/Dispatch.lean ====
section
/-! DEFINITION. One arm per instruction, each one direct call of its meaning. -/

namespace Sys2Proof.Machine

/-- What an instruction does. -/
def exec (i : Instr) (s : State) : Host.Outcome State Fault Refusal :=
  match i with
  | .goIdleState => Sys2Proof.Machine.execGoIdleState s
  | .sendOpCond arg => Sys2Proof.Machine.execSendOpCond arg s
  | .allSendCid => Sys2Proof.Machine.execAllSendCid s
  | .setRelativeAddr => Sys2Proof.Machine.execSetRelativeAddr s
  | .sendRelativeAddr => Sys2Proof.Machine.execSendRelativeAddr s
  | .setBusWidth => Sys2Proof.Machine.execSetBusWidth s
  | .selectCard arg => Sys2Proof.Machine.execSelectCard arg s
  | .deselectCard => Sys2Proof.Machine.execDeselectCard s
  | .sendIfCond => Sys2Proof.Machine.execSendIfCond s
  | .sendCsd arg => Sys2Proof.Machine.execSendCsd arg s
  | .stopTransmission => Sys2Proof.Machine.execStopTransmission s
  | .setBlocklen => Sys2Proof.Machine.execSetBlocklen s
  | .readSingleBlock addr => Sys2Proof.Machine.execReadSingleBlock addr s
  | .sdSendOpCond arg => Sys2Proof.Machine.execSdSendOpCond arg s
  | .appCmd arg => Sys2Proof.Machine.execAppCmd arg s
  | .acquire => Sys2Proof.Machine.execAcquire s
  | .openDesc d => Sys2Proof.Machine.execOpen d s
  | .read d bufSize length => Sys2Proof.Machine.execRead d bufSize length s
  | .seek d pos => Sys2Proof.Machine.execSeek d pos s

end Sys2Proof.Machine
end

