-- ==== Sys2Proof/WellFormed.lean ====
section
/-! DEFINITION. Which instructions an encoding of the opcode table stands for. -/

namespace Sys2Proof

/-- The two operand checks of the table's rows: index 7 with argument 0 is DESELECT_CARD, so SELECT_CARD has
an argument other than 0 (30_encoding.md R123); READ_SINGLE_BLOCK's argument has bits 8:0 zero (R108, the
row's mask). Every other operand may have every value. -/
def Instr.wf : Instr → Bool
  | .goIdleState => true
  | .sendOpCond _ => true
  | .allSendCid => true
  | .setRelativeAddr => true
  | .sendRelativeAddr => true
  | .setBusWidth => true
  | .selectCard arg => decide (arg ≠ 0#32)
  | .deselectCard => true
  | .sendIfCond => true
  | .sendCsd _ => true
  | .stopTransmission => true
  | .setBlocklen => true
  | .readSingleBlock addr => decide (addr &&& 0x1FF#32 = 0#32)
  | .sdSendOpCond _ => true
  | .appCmd _ => true
  | .acquire => true
  | .openDesc _ => true
  | .read _ _ _ => true
  | .seek _ _ => true

end Sys2Proof
end

