-- ==== Sys2Proof/Decode.lean ====
section
/-! DEFINITION. From bytes to instructions and back. A card command is its 48-bit frame, six bytes most
significant first (30_encoding.md R92, R123); a host operation is a request byte with the operation code of
R120 in bits 1:0 and then its operands, 32-bit words most significant byte first (assumption log 3). The first
byte tells the two levels apart: a command frame begins with bits 01. -/

namespace Sys2Proof

open Machine

/-- An instruction whose argument field is fixed: any other argument is rejected (the row's mask). -/
def fixedArg (index : BitVec 6) (want arg : Word) (i : Instr) : Except Reject Instr :=
  if arg = want then .ok i else .error (.badArgument index)

/-- The command named by an index and an argument (R118, R123): index 3 is told apart by the argument, index 7
is DESELECT_CARD when the argument is 0, and the indices R116 lists are never sent. -/
def decodeIndex (index : BitVec 6) (arg : Word) : Except Reject Instr :=
  if index = 0 then fixedArg index 0 arg .goIdleState
  else if index = 1 then .ok (.sendOpCond arg)
  else if index = 2 then fixedArg index 0 arg .allSendCid
  else if index = 3 then
    if arg = 0 then .ok .sendRelativeAddr else fixedArg index argMmcRca arg .setRelativeAddr
  else if index = 6 then fixedArg index Config.busWidthArg arg .setBusWidth
  else if index = 7 then if arg = 0 then .ok .deselectCard else .ok (.selectCard arg)
  else if index = 8 then fixedArg index Config.ifCondArg arg .sendIfCond
  else if index = 9 then .ok (.sendCsd arg)
  else if index = 12 then fixedArg index 0 arg .stopTransmission
  else if index = 16 then fixedArg index argBlocklen arg .setBlocklen
  else if index = 17 then
    if arg &&& 0x1FF#32 = 0#32 then .ok (.readSingleBlock arg) else .error (.badArgument index)
  else if index = 41 then .ok (.sdSendOpCond arg)
  else if index = 55 then .ok (.appCmd arg)
  else .error (.reservedIndex index)

/-- Decoding a frame from the table alone (R123). The CRC field is not looked at: no rule has the block check
the CRC of a frame it sends (assumption log 2). -/
def decodeFrame (f : Frame) : Except Reject Instr :=
  if f.extractLsb' 46 2 ≠ 0b01#2 then .error .notCommandFrame
  else if f.extractLsb' 0 1 ≠ 1#1 then .error .endBit
  else decodeIndex (frameIndex f) (frameArg f)

/-- A frame seen on the wire after the frame before it (R109): an index of 6 or 41 is an application command
exactly when the previous frame was an APP_CMD. -/
def decodeOnWire (previous : Option Frame) (f : Frame) : Except Reject Instr :=
  if (frameIndex f = 6 ∨ frameIndex f = 41) ∧ previous.map frameIndex ≠ some 55#6 then
    .error (.reservedIndex (frameIndex f))
  else decodeFrame f

/-- A 32-bit operand word, most significant byte first. -/
def takeWord : List Byte → Except Reject (Word × List Byte)
  | b0 :: b1 :: b2 :: b3 :: rest => .ok (b0 ++ b1 ++ b2 ++ b3, rest)
  | _ => .error .truncated

/-- The descriptor operand: start, length, cursor (R121). -/
def takeDesc (bs : List Byte) : Except Reject (Desc × List Byte) :=
  match takeWord bs with
  | .error r => .error r
  | .ok (start, bs) =>
    match takeWord bs with
    | .error r => .error r
    | .ok (length, bs) =>
      match takeWord bs with
      | .error r => .error r
      | .ok (cursor, bs) => .ok (⟨start, length, cursor⟩, bs)

/-- OPEN's operands. -/
def decodeOpen (bs : List Byte) : Except Reject (Instr × List Byte) :=
  match takeDesc bs with
  | .error r => .error r
  | .ok (d, bs) => .ok (.openDesc d, bs)

/-- READ's operands. -/
def decodeRead (bs : List Byte) : Except Reject (Instr × List Byte) :=
  match takeDesc bs with
  | .error r => .error r
  | .ok (d, bs) =>
    match takeWord bs with
    | .error r => .error r
    | .ok (bufSize, bs) =>
      match takeWord bs with
      | .error r => .error r
      | .ok (length, bs) => .ok (.read d bufSize length, bs)

/-- SEEK's operands. -/
def decodeSeek (bs : List Byte) : Except Reject (Instr × List Byte) :=
  match takeDesc bs with
  | .error r => .error r
  | .ok (d, bs) =>
    match takeWord bs with
    | .error r => .error r
    | .ok (pos, bs) => .ok (.seek d pos, bs)

/-- A host operation: its request byte and the operand bytes after it (R120). -/
def decodeOp (op : Byte) (bs : List Byte) : Except Reject (Instr × List Byte) :=
  if op = 0 then .ok (.acquire, bs)
  else if op = 1 then decodeOpen bs
  else if op = 2 then decodeRead bs
  else if op = 3 then decodeSeek bs
  else .error .reservedOp

/-- A card command: its six frame bytes. -/
def decodeCommand : List Byte → Except Reject (Instr × List Byte)
  | b0 :: b1 :: b2 :: b3 :: b4 :: b5 :: rest =>
    match decodeFrame (b0 ++ b1 ++ b2 ++ b3 ++ b4 ++ b5) with
    | .error r => .error r
    | .ok i => .ok (i, rest)
  | _ => .error .truncated

/-- The first instruction of a byte string, with the bytes after it; total, rejecting by name. -/
def decode : List Byte → Except Reject (Instr × List Byte)
  | [] => .error .truncated
  | b :: bs => if b.extractLsb' 6 2 = 0b01#2 then decodeCommand (b :: bs) else decodeOp b bs

/-! The encoder, from the same tables. -/

/-- The bytes of a command with its argument: the frame the block sends (R92). -/
def encodeCmd (c : Cmd) (arg : Word) : List Byte :=
  frameBytes (cmdFrame c.descriptor.index arg)

/-- The bytes of a descriptor operand. -/
def encodeDesc (d : Desc) : List Byte :=
  wordBytes d.start ++ wordBytes d.length ++ wordBytes d.cursor

/-- The bytes of an instruction. -/
def encode : Instr → List Byte
  | .goIdleState => encodeCmd .goIdleState 0
  | .sendOpCond arg => encodeCmd .sendOpCond arg
  | .allSendCid => encodeCmd .allSendCid 0
  | .setRelativeAddr => encodeCmd .setRelativeAddr argMmcRca
  | .sendRelativeAddr => encodeCmd .sendRelativeAddr 0
  | .setBusWidth => encodeCmd .setBusWidth Config.busWidthArg
  | .selectCard arg => encodeCmd .selectCard arg
  | .deselectCard => encodeCmd .deselectCard 0
  | .sendIfCond => encodeCmd .sendIfCond Config.ifCondArg
  | .sendCsd arg => encodeCmd .sendCsd arg
  | .stopTransmission => encodeCmd .stopTransmission 0
  | .setBlocklen => encodeCmd .setBlocklen argBlocklen
  | .readSingleBlock addr => encodeCmd .readSingleBlock addr
  | .sdSendOpCond arg => encodeCmd .sdSendOpCond arg
  | .appCmd arg => encodeCmd .appCmd arg
  | .acquire => [0]
  | .openDesc d => 1 :: encodeDesc d
  | .read d bufSize length => 2 :: encodeDesc d ++ wordBytes bufSize ++ wordBytes length
  | .seek d pos => 3 :: encodeDesc d ++ wordBytes pos

/-- The bytes of an instruction whose table bits are `w`: a frame's six bytes, or a request byte followed by
operand words of zeros up to the longest host operation. -/
def tableBytes (nbits w : Nat) : List Byte :=
  if nbits ≤ 8 then BitVec.ofNat 8 w :: List.replicate 20 0 else frameBytes (BitVec.ofNat 48 w)

/-- What the decoder reads from an instruction numbered as spec/opcode_table.json numbers it. -/
def decodeTableWord (nbits w : Nat) : Option Instr :=
  match decode (tableBytes nbits w) with
  | .ok (i, _) => some i
  | .error _ => none

end Sys2Proof
end

