-- ==== Sys2Proof/Machine/Fetch.lean ====
section
/-! DEFINITION. Taking the next request from the port. The block fetches no instructions (20_memory.md R78): the
host presents one operation at a time (30_encoding.md R120), a sequencer one command at a time, and the port
holds what has been presented and not yet taken. -/

namespace Sys2Proof.Machine

/-- What the port offers. -/
inductive Fetched where
  | nothing                                  -- no request is pending
  | request (i : Instr) (rest : List Byte)
  | rejected (why : Reject)
  deriving DecidableEq, Repr

/-- The request at the port. -/
def fetch (s : State) : Fetched :=
  match s.port with
  | [] => .nothing
  | b :: bs =>
    match decode (b :: bs) with
    | .ok (i, rest) => .request i rest
    | .error r => .rejected r

/-- The request is taken: the timer has moved by any amount since the step before (R42), and the port holds what
follows. -/
def takeRequest (rest : List Byte) (s : State) : State :=
  { s.advance 0 with port := rest }

end Sys2Proof.Machine
end

