-- ==== Sys2Proof/Machine/Step.lean ====
section
/-! DEFINITION. One step of the machine. -/

namespace Sys2Proof.Machine

/-- One step: with no request pending the block waits between operations and only time passes (70_reset_and_hazards.md
R331); a pending request is taken and run to its end (R73); bytes that name no command and no operation are
refused (R116). -/
def step (s : State) : Host.Outcome State Fault Refusal :=
  match fetch s with
  | .nothing => .next (s.advance 0)
  | .request i rest => exec i (takeRequest rest s)
  | .rejected why => .refused (.undecodable why)

/-- `s` with the instruction numbered `w` (as spec/opcode_table.json numbers it) at the port, where `step` takes its
next request. -/
def State.withFetchWord (s : State) (nbits w : Nat) : State :=
  { s with port := tableBytes nbits w }

end Sys2Proof.Machine
end

