-- ==== Sys2Proof/Machine/Port.lean ====
section
/-! DEFINITION. The read-only register view of the upward port (92_eei_decisions.md D2 supplement; 30_encoding.md
R121): what the host can read between operations. An illustration in the spec, no rule depends on it; it has no
write of the session (60_exceptions.md R310).

DESIGN CHOICE (assumption log 16): D2 gives `RES_STATUS` for OPEN, READ and ACQUIRE, `RES_COUNT` for READ and
`RES_CURSOR` for READ and SEEK, and is silent on what they read after an operation that does not return the value, after
a card command (whose status `RES_STATUS` shows), and before any operation. The model has them read 0 there. D2 also
leaves bits of these registers without content, bits 31:3 of `RES_STATUS` (31:1 for ACQUIRE) and 15:4 of
`SESSION_FLAGS`. The model has those bits read 0. -/

namespace Sys2Proof.Machine

/-- `RES_STATUS`: bits 2:0 a status code, or bit 0 `acquired` for ACQUIRE. 0 in the other bits, after SEEK and before any
operation is the model's choice (assumption log 16). -/
def resStatus : Result → Word
  | .none => 0
  | .acquired ok => 0#31 ++ BitVec.ofBool ok
  | .status st => 0#29 ++ st.code
  | .read _ st _ => 0#29 ++ st.code
  | .cursor _ => 0

/-- `RES_COUNT`: `count` of READ. 0 after anything else and before any operation is the model's choice (assumption
log 16). -/
def resCount : Result → Word
  | .none => 0
  | .acquired _ => 0
  | .status _ => 0
  | .read count _ _ => count
  | .cursor _ => 0

/-- `RES_CURSOR`: the new cursor of READ or SEEK. 0 after anything else and before any operation is the model's choice
(assumption log 16). -/
def resCursor : Result → Word
  | .none => 0
  | .acquired _ => 0
  | .status _ => 0
  | .read _ _ cursor => cursor
  | .cursor cursor => cursor

/-- `SESSION_FLAGS`: bit 0 acquired, bit 1 sd, bits 3:2 `acq_result`, bits 31:16 `rca`. 0 in bits 15:4 is the model's choice
(assumption log 16). -/
def sessionFlags (s : State) : Word :=
  s.session.rca ++ 0#12 ++ s.acqResult.code ++ BitVec.ofBool s.session.sd ++ BitVec.ofBool s.session.acquired

/-- The readable registers, by offset. -/
def portRead (s : State) (offset : Nat) : Option Word :=
  if offset = 0x18 then some (resStatus s.result)
  else if offset = 0x1C then some (resCount s.result)
  else if offset = 0x20 then some (resCursor s.result)
  else if offset = 0x24 then some (sessionFlags s)
  else if offset = 0x28 then some (be32 (bytes16 s.session.cid) 0)
  else if offset = 0x2C then some (be32 (bytes16 s.session.cid) 4)
  else if offset = 0x30 then some (be32 (bytes16 s.session.cid) 8)
  else if offset = 0x34 then some (be32 (bytes16 s.session.cid) 12)
  else if offset = 0x38 then some (be32 (bytes16 s.session.csd) 0)
  else if offset = 0x3C then some (be32 (bytes16 s.session.csd) 4)
  else if offset = 0x40 then some (be32 (bytes16 s.session.csd) 8)
  else if offset = 0x44 then some (be32 (bytes16 s.session.csd) 12)
  else if offset = 0x48 then some s.session.blockLen
  else if offset = 0x4C then some s.session.blockCount
  else if offset = 0x50 then some (s.session.deviceSize.extractLsb' 0 32)
  else if offset = 0x54 then some (s.session.deviceSize.extractLsb' 32 32)
  else if offset = 0x58 then some s.session.acquireTimeMs
  else none

end Sys2Proof.Machine
end

