-- ==== Sys2Proof/Machine/Realization.lean ====
section
/-! DEFINITION. What the spec says of the two realizations below the contract: the transfer-type word
(30_encoding.md R122), the interrupt-status word and the response words of realization B (92_eei_decisions.md
D34, 20_memory.md R63), the data-port packing (R64), the bounded polling of the data phase (42_host_transport.md
R198, R199, R208) and the shift order of realization A (R205). No meaning calls these: the contract does not
contain the registers (10_state.md R45), and the laws say that they change no result (R204 e). -/

namespace Sys2Proof.Machine

/-- `RSPLEN` of the transfer-type word (R122). -/
def rspLenCode : RspFormat → BitVec 2
  | .none => 0
  | .r1 => 2
  | .r1b => 3
  | .r2 => 1
  | .r3 => 2
  | .r6 => 2
  | .r7 => 2

/-- The transfer-type word of realization B (R122): 1:0 RSPLEN, 2 CRCCHK, 3 DPSEL, 4 DIR. -/
def xferTyp (d : Descriptor) : Word :=
  0#27 ++ BitVec.ofBool (d.data && !d.write) ++ BitVec.ofBool d.data ++ BitVec.ofBool d.rsp.checksCrc
    ++ rspLenCode d.rsp

/-- `ISTAT`: the flags of `ST` as realization B shows them (D34, R206). -/
def istat (st : Flags) : Word :=
  0#11 ++ BitVec.ofBool st.dataCrcErr ++ BitVec.ofBool st.dataTimeout ++ BitVec.ofBool st.cmdIndexErr
    ++ BitVec.ofBool st.rspCrcErr ++ BitVec.ofBool st.cmdTimeout ++ 0#13 ++ BitVec.ofBool st.dataReady
    ++ BitVec.ofBool st.xferDone ++ BitVec.ofBool st.cmdDone

/-- `CLKCTL`: bit 0 `clk_sel`, bit 1 `bus_wide` (D34). 0 in bits 31:2, on which D34 is silent, is the model's choice (DESIGN
CHOICE, assumption log 16). -/
def clkCtl (s : State) : Word :=
  0#30 ++ BitVec.ofBool s.busWide ++ BitVec.ofBool (decide (s.clkSel = .oper))

/-- The response registers `(RSP3, RSP2, RSP1, RSP0)` of realization B (D34). D34 gives `RSP0` of a 48-bit response and
all four of a 136-bit one; that `RSP1` to `RSP3` are 0 after a 48-bit response, and all four after none, is the model's
choice (DESIGN CHOICE, assumption log 16). -/
def rspWords : Rsp → Word × Word × Word × Word
  | .noResponse => (0, 0, 0, 0)
  | .rsp48 _ payload _ => (0, 0, 0, payload)
  | .rsp136 c => (c.extractLsb' 96 32, c.extractLsb' 64 32, c.extractLsb' 32 32, c.extractLsb' 0 32)

/-- Reassembly of a 136-bit response from four 32-bit words, `W3` first (R63). -/
def reassemble (w : Word × Word × Word × Word) : Reg128 :=
  w.1 ++ w.2.1 ++ w.2.2.1 ++ w.2.2.2

/-- The words a data block has in the data port, byte `4j` in bits 7 to 0 of word `j` (R64). -/
def packWords : List Byte → List Word
  | b0 :: b1 :: b2 :: b3 :: rest => (b3 ++ b2 ++ b1 ++ b0) :: packWords rest
  | _ => []

/-- The bytes of the data-port words, in wire order (R64). -/
def unpackWords (ws : List Word) : List Byte :=
  ws.flatMap fun w => [w.extractLsb' 0 8, w.extractLsb' 8 8, w.extractLsb' 16 8, w.extractLsb' 24 8]

/-- The words moved by poll iterations of at most `k` words each, in ascending order (R198); the first argument
bounds the iterations. -/
def bursts (k : Nat) : Nat → List Word → List (List Word)
  | 0, _ => []
  | n + 1, ws => if ws.isEmpty then [] else ws.take k :: bursts k n (ws.drop k)

/-- The data phase of realization B as it moves a block: packed in the port, read in bursts, unpacked (R206). -/
def moveBlock (wordsPerPoll : Nat) (bytes : List Byte) : List Byte :=
  unpackWords (bursts wordsPerPoll 128 (packWords bytes)).flatten

/-- One look at a condition, with the timer value at that moment. -/
structure Poll where
  ready : Bool
  atMs  : Nat
  deriving DecidableEq, Repr

/-- `wait_until(pred, budget_ms)` (R208) over the polls that happen: the condition is looked at before the budget,
and at least once; `none` while the wait goes on. -/
def waitUntil (t0 budget : Nat) : List Poll → Option Bool
  | [] => none
  | p :: ps =>
    if p.ready then some true
    else if budget ≤ p.atMs - t0 then some false
    else waitUntil t0 budget ps

/-- The data wait in terms of the statuses of its polls (R199, R294): a transient condition is retried, and what
comes out is `Ok` or `Timeout`. -/
def dataWait (t0 : Nat) (polls : List Poll) : Option Status :=
  (waitUntil t0 Config.tDataMs (polls.map fun p => ⟨decide (pollStatus p.ready = .ok), p.atMs⟩)).map
    fun r => if r then .ok else .timeout

/-- The bits realization A shifts out for a frame, most significant first (R205, R91). -/
def shiftOut (f : Frame) : List Bool := bitsMsb f

/-- The value of bits shifted in, in arrival order (R205). -/
def shiftIn (bits : List Bool) : Nat :=
  bits.foldl (fun v b => 2 * v + b.toNat) 0

/-- The registers that one exchange of realization B writes, in order (R206): `ARG`, `XFERTYP`, `CMD`. 0 in bits 31:6 of
`CMD`, on which D34 is silent, is the model's choice (DESIGN CHOICE, assumption log 16). -/
def exchangeWrites (d : Descriptor) (arg : Word) : List (Nat × Word) :=
  [(0x00, arg), (0x04, xferTyp d), (0x08, 0#26 ++ d.index)]

end Sys2Proof.Machine
end

