-- ==== Sys2Proof/Safety.lean ====
section
/-! DEFINITION. What a good state is between operations: the invariants of 10_state.md R49 and R50, in the terms the
statements use. -/

namespace Sys2Proof.Machine

/-- R50 (g), R49 (c): the cache base is the sentinel or a multiple of 512. -/
def cacheAligned (s : State) : Bool :=
  decide (s.cache.base = Config.cacheInvalid) || decide (s.cache.base &&& 0x1FF#32 = 0#32)

/-- R50 (f): with no card acquired the session is zero, the bus is 1 bit wide and the cache is empty. -/
def clearedUnlessAcquired (s : State) : Bool :=
  s.session.acquired
    || (decide (s.session = Session.zero) && !s.busWide && decide (s.cache.base = Config.cacheInvalid))

/-- R50 (e): with a card acquired the derived fields are the parse of `S.csd`. -/
def parsedWhenAcquired (s : State) : Bool :=
  !s.session.acquired
    || (decide (s.session.blockLen.toNat = csdBlockLen s.session.csd)
        && decide (s.session.blockCount.toNat = csdBlockCount s.session.csd)
        && decide (s.session.deviceSize.toNat = csdDeviceSize s.session.csd))

/-- R50 (h): the flags are 0, the card clock is stopped, and both sequencers are at rest. -/
def atRest (s : State) : Bool :=
  decide (s.st = Flags.clear) && !s.clkRun && s.between

/-- R50 (i) with R34: the last ACQUIRE returned true exactly in `Done`, and `acq_result` says so. -/
def acqConsistent (s : State) : Bool :=
  (decide (s.acqState = .done) == s.session.acquired)
    && (decide (s.acqResult = .acquired) == decide (s.acqState = .done))

/-- The 4-bit bus is negotiated only with an SD card on a wide host (R40, R266). -/
def wideOnlySd (s : State) : Bool :=
  !s.busWide || (s.session.sd && s.cfg.hostWide)

/-- The invariant of the block between operations (R49, R50). -/
def State.inv (s : State) : Bool :=
  cacheAligned s && clearedUnlessAcquired s && parsedWhenAcquired s && atRest s && acqConsistent s
    && wideOnlySd s && Memory.wf s.caller

/-- The frames of a trace, in the order in which they went out. -/
def framesOf (trace : List Event) : List Frame :=
  trace.reverse.filterMap fun e =>
    match e.kind with
    | .frame f _ => some f
    | .clock _ => none
    | .delayUs _ => none
    | .delayMs _ => none

/-- In a newest-first trace every frame with an application command's index (6 or 41) stands directly on top of an
APP_CMD frame, with nothing interleaved (20_memory.md R76, 42_host_transport.md R193). -/
def acmdPaired : List Event → Bool
  | [] => true
  | ⟨.frame f _, _⟩ :: rest =>
    (if frameIndex f = 6#6 ∨ frameIndex f = 41#6 then
      match rest with
      | ⟨.frame g _, _⟩ :: _ => decide (frameIndex g = 55#6)
      | _ => false
    else true) && acmdPaired rest
  | _ :: rest => acmdPaired rest

/-! The card's answers, as the statements name them. -/

/-- The card's answer to the `n`-th frame from now. -/
def answerAt (s : State) (n : Nat) : Answer :=
  (s.card.drop n).headD ⟨.noResponse, false, .noData⟩

/-- The CRC a 48-bit response with these fields should carry (R93). -/
def rspCrc (index : BitVec 6) (payload : Word) : BitVec 7 := crc7 (bitsMsb (rspHead index payload))

/-- A 48-bit response that passes its checks for a command of this index (R110). -/
def goodRsp (index : BitVec 6) (payload : Word) : Rsp := .rsp48 index payload (rspCrc index payload)

/-- A 136-bit response passes its check (R94, R110). -/
def regCrcGood (content : Reg128) : Bool :=
  decide (content.extractLsb' 1 7 = crc7 (bitsMsb (content.extractLsb' 8 120)))

/-- The card gives no response to anything (Scenario B). -/
def silentCard (s : State) : Bool :=
  s.card.all fun a => decide (a.rsp = .noResponse)

/-- The card answers an ACMD41 pair: a good R1 to the prefix, and an OCR that is ready or not (R174). -/
def ocrPair (ready : Bool) (p : Answer × Answer) : Prop :=
  (∃ w, p.1.rsp = goodRsp 55#6 w) ∧ ∃ index ocr crc, p.2.rsp = .rsp48 index ocr crc ∧ ocrReady ocr = ready

/-- The answers of pairs, in order. -/
def pairAnswers (ps : List (Answer × Answer)) : List Answer := ps.flatMap fun p => [p.1, p.2]

/-- The data answer is a data frame with these 512 bytes and good checksums, on one line or on four (R198). -/
def DataAns.delivers (ans : DataAns) (bytes : Block) : Prop :=
  ans = .data bytes (crc16 bytes.toList) ∨
  ∃ c3 c2 c1 c0, ans = .data4 bytes c3 c2 c1 c0 ∧ (c3, c2, c1, c0) = lineCrcs bytes.toList

/-- The status a checked command of this index ends with, by the card's answer (R110, R198, R292, R296): no response, a
wrong CRC, a wrong index, a busy that is not released (CMD7), a data frame that does not come or is bad (CMD17). A
136-bit response is refused (R112) and gives a status that no such command has. -/
def answerStatus (index : BitVec 6) (ans : Answer) : Status :=
  match ans.rsp with
  | .noResponse => .timeout
  | .rsp136 _ => .genericFailure
  | .rsp48 i payload crc =>
    if crc ≠ rspCrc i payload then .crcError
    else if i ≠ index then .commandError
    else if index = 7#6 ∧ ans.busyReleased = false then .timeout
    else if index = 17#6 then
      match ans.data with
      | .noData => .timeout
      | .data bytes c => if c = crc16 bytes.toList then .ok else .crcError
      | .data4 bytes c3 c2 c1 c0 => if (c3, c2, c1, c0) = lineCrcs bytes.toList then .ok else .crcError
    else .ok

/-- The frames of a refill (R276) after its deselect, in order; `pair` says whether the bus-width pair is among them. -/
def refillFrames (pair : Bool) (rca : BitVec 16) (base : Word) : List Frame :=
  [cmdFrame 7#6 (rca ++ 0#16)] ++
    (if pair then [cmdFrame 55#6 (rca ++ 0#16), cmdFrame 6#6 2#32] else []) ++
    [cmdFrame 16#6 512#32, cmdFrame 17#6 base]

/-- A response of the length that the command of this frame does not expect, for the frames of an ACQUIRE (R102, R112):
CMD2 and CMD9 expect 136 bits, CMD0 nothing, the others 48. -/
def misfit (f : Frame) (rsp : Rsp) : Bool :=
  match rsp with
  | .noResponse => false
  | .rsp48 _ _ _ => decide (frameIndex f = 2#6) || decide (frameIndex f = 9#6)
  | .rsp136 _ => decide (frameIndex f ≠ 0#6) && decide (frameIndex f ≠ 2#6) && decide (frameIndex f ≠ 9#6)

/-! The turns of the acquisition's loops, as the trace has them. -/

/-- The frames of one `op_cond(b, arg)` (R226): the command, with its prefix in the SD branch, where the prefix alone
goes out if it fails (R193). -/
def opCondFrames (b : Branch) (rca : BitVec 16) (arg : Word) : List (List Frame) :=
  match b with
  | .sd => [[cmdFrame 55#6 (rca ++ 0#16)], [cmdFrame 55#6 (rca ++ 0#16), cmdFrame 41#6 arg]]
  | .mmc => [[cmdFrame 1#6 arg]]

/-- A turn of a loop that delays before its try: when the delay began, and the events of the try, newest first. -/
structure LoopTurn where
  delayAt : Nat
  events  : List Event

/-- What such a turn adds to the trace: the events of the try on top of its delay of `n` milliseconds. -/
def LoopTurn.trace (n : Nat) (u : LoopTurn) : List Event := u.events ++ [⟨.delayMs n, u.delayAt⟩]

/-- No event is a delay of milliseconds. -/
def undelayed (evs : List Event) : Prop := ∀ e ∈ evs, ∀ n, e.kind ≠ .delayMs n

/-- The turns of a loop, newest first: each sent the frames of one try, every event of it at least `n` milliseconds
after its delay began, and no delay began before the time `t0` or before an event of an earlier turn (R340). -/
structure SpacedTurns (n : Nat) (frames : List (List Frame)) (t0 : Nat) (us : List LoopTurn) : Prop where
  sent    : ∀ u ∈ us, framesOf u.events ∈ frames ∧ undelayed u.events
  waited  : ∀ u ∈ us, t0 ≤ u.delayAt ∧ ∀ e ∈ u.events, u.delayAt + n ≤ e.atMs
  ordered : us.Pairwise fun later earlier => ∀ e ∈ earlier.events, e.atMs ≤ later.delayAt

/-! What a completed instruction is said to have done. -/

/-- The instruction completes: `exec` answers a next state, and that state has the property. -/
def Completes (i : Instr) (s : State) (post : State → Prop) : Prop :=
  ∃ t, exec i s = .next t ∧ post t

/-- What no card command writes (R202): the Card Session, `bus_wide`, every sequencer register, the parameters, the
caller's buffer and descriptor, and the requests still pending. The cache stands beside it in each statement. -/
structure CommandFrame (s t : State) : Prop where
  session     : t.session = s.session
  acqState    : t.acqState = s.acqState
  acqResult   : t.acqResult = s.acqResult
  tries       : t.tries = s.tries
  ocr         : t.ocr = s.ocr
  negArg      : t.negArg = s.negArg
  negT0       : t.negT0 = s.negT0
  sdTimedOut  : t.sdTimedOut = s.sdTimedOut
  mmcTimedOut : t.mmcTimedOut = s.mmcTimedOut
  rfState     : t.rfState = s.rfState
  busWide     : t.busWide = s.busWide
  cfg         : t.cfg = s.cfg
  desc        : t.desc = s.desc
  caller      : t.caller = s.caller
  port        : t.port = s.port

/-- A card command has run to its end: it sent exactly these frames (R204 a), one answer was taken for each, every
flag is 0 and the card clock of realization A stands (R200), the clock is the one its `LS` flag selects (R191), time
has not gone back, nothing of `CommandFrame` changed, and it returned this status. -/
structure CommandDone (s t : State) (frames : List Frame) (ls : Bool) (st : Status) : Prop where
  frame  : CommandFrame s t
  wire   : framesOf t.trace = framesOf s.trace ++ frames
  card   : t.card = s.card.drop frames.length
  flags  : t.st = Flags.clear
  clkRun : t.clkRun = if s.cfg.realization = .bitPulse then false else s.clkRun
  clock  : t.clkSel = clockOf ls
  time   : s.nowMs ≤ t.nowMs
  status : t.result = .status st

end Sys2Proof.Machine
end

