-- ==== Sys2Proof/Certificates/Slice0/Obligations.lean ====
section
/-! DEFINITION. The statements for the provers. A statement about every state holds whatever the card answers, the
timer does and the OPEN parameters are: all of these stand in the state. -/

open Sys2Proof Sys2Proof.Machine

/-! ## Encodings -/

/-- Words written out from R91 to R101 and the worked frames of R161 to R175, one index that is refused, and the two
request bytes of ACQUIRE and SEEK, whose layout is the model's choice (assumption log 3). -/
def Obligations.FramesOfTheSpecDecodeToTheirCommands : Prop :=
  decodeTableWord 48 0x400000000095 = some .goIdleState ∧
  decodeTableWord 48 0x4100FF800099 = some (.sendOpCond 0x00FF8000) ∧
  decodeTableWord 48 0x43000100007F = some .setRelativeAddr ∧
  decodeTableWord 48 0x430000000021 = some .sendRelativeAddr ∧
  decodeTableWord 48 0x471234000059 = some (.selectCard 0x12340000) ∧
  decodeTableWord 48 0x470000000083 = some .deselectCard ∧
  decodeTableWord 48 0x510000020079 = some (.readSingleBlock 0x200) ∧
  decodeTableWord 48 0x7712340000BF = some (.appCmd 0x12340000) ∧
  decodeTableWord 48 0x4D0000000001 = none ∧
  decodeTableWord 8 0 = some .acquire ∧
  decodeTableWord 8 3 = some (.seek ⟨0, 0, 0⟩ 0)

/-- Decoding the encoding of a well-formed instruction gives it back, every operand at every value, and leaves the
bytes after it. The byte layout of a host operation is the model's choice (assumption log 3). -/
def Obligations.DecodeOfEncodeIsTheInstruction : Prop :=
  ∀ (i : Instr) (rest : List Byte), i.wf = true → decode (encode i ++ rest) = .ok (i, rest)

/-- The other direction: what decodes is well formed; a host operation has one encoding, in the byte layout that is the
model's choice (assumption log 3); the bytes of a card command are a frame with the bits its row of the opcode table fixes and the argument the instruction carries. -/
def Obligations.DecodedBytesAreTheTableRow : Prop :=
  ∀ (bs rest : List Byte) (i : Instr), decode bs = .ok (i, rest) →
    i.wf = true ∧
    (cmdOf i = none → bs = encode i ++ rest) ∧
    (∀ c arg, cmdOf i = some (c, arg) →
      ∃ f : Frame, bs = frameBytes f ++ rest ∧ f &&& c.mask = c.pattern ∧ frameArg f = arg ∧
        frameIndex f = c.descriptor.index)

/-- R123: the rows of the table overlap in SELECT_CARD and DESELECT_CARD only, which the argument tells apart. -/
def Obligations.RowsOverlapOnlyAtIndexSeven : Prop :=
  ∀ (c c' : Cmd) (f : Frame), f &&& c.mask = c.pattern → f &&& c'.mask = c'.pattern →
    c = c' ∨ (c = .selectCard ∧ c' = .deselectCard) ∨ (c = .deselectCard ∧ c' = .selectCard)

/-- R91, R92: the fields of every command frame, its six bytes, and the worked examples. -/
def Obligations.CommandFrameHasItsFields : Prop :=
  ∀ (index : BitVec 6) (arg : Word),
    (cmdFrame index arg).extractLsb' 47 1 = 0#1 ∧ (cmdFrame index arg).extractLsb' 46 1 = 1#1 ∧
    frameIndex (cmdFrame index arg) = index ∧ frameArg (cmdFrame index arg) = arg ∧
    frameCrc (cmdFrame index arg) = crc7 (bitsMsb ((cmdFrame index arg).extractLsb' 8 40)) ∧
    (cmdFrame index arg).extractLsb' 0 1 = 1#1 ∧
    cmdFrame index arg = 0b01#2 ++ index ++ arg ++ crc7 (bitsMsb (0b01#2 ++ index ++ arg)) ++ 1#1 ∧
    frameBytes (cmdFrame index arg) =
      [0x40#8 ||| index.setWidth 8, arg.extractLsb' 24 8, arg.extractLsb' 16 8, arg.extractLsb' 8 8,
        arg.extractLsb' 0 8, (crc7 (bitsMsb (0b01#2 ++ index ++ arg)) ++ 0#1) ||| 1#8] ∧
    cmdFrame 0#6 0#32 = 0x400000000095#48 ∧ cmdFrame 17#6 0x200#32 = 0x510000020079#48

/-- R109: on the wire an index of 6 or 41 is an application command exactly after an APP_CMD frame. -/
def Obligations.ApplicationCommandsNeedTheirPrefixOnTheWire : Prop :=
  ∀ (f : Frame), frameIndex f = 6#6 ∨ frameIndex f = 41#6 →
    (∀ g : Frame, frameIndex g = 55#6 → decodeOnWire (some g) f = decodeFrame f) ∧
    (∀ g : Frame, frameIndex g ≠ 55#6 → decodeOnWire (some g) f = .error (.reservedIndex (frameIndex f))) ∧
    decodeOnWire none f = .error (.reservedIndex (frameIndex f))

/-- R101: the fifteen descriptor words. -/
def Obligations.DescriptorWordsOfTheTable : Prop :=
  Cmd.all.map (fun c => c.descriptor.toWord) =
    [0x0200, 0x0301, 0x02C2, 0x0243, 0x0343, 0x0446, 0x2087, 0x0007, 0x0388, 0x02C9, 0x208C, 0x0851, 0x0050,
      0x0729, 0x0077]

/-- R100, R116: the word carries every part of a descriptor, and exactly the words with the write flag, the reserved
tag code or bits 15:14 are refused. -/
def Obligations.DescriptorWordRoundTrip : Prop :=
  (∀ d : Descriptor, d.write = false → Descriptor.ofWord d.toWord = some d) ∧
  (∀ w : BitVec 16, Descriptor.ofWord w = none ↔
    w.getLsbD 12 = true ∨ w.extractLsb' 6 3 = 7#3 ∨ w.extractLsb' 14 2 ≠ 0#2)

/-! ## The pure functions -/

/-- R141: a received CRC field is the computed one exactly when the register over the covered bits and then the
received bits ends at 0; the check is made on R1, R1b, R6, R7 and R2, not on R3, over bits 47:8 of a 48-bit frame and bits
127:8 of a 136-bit frame. -/
def Obligations.CrcCheckIsTheZeroResidue : Prop :=
  (∀ (bits : List Bool) (c : BitVec 7), crc7 (bits ++ bitsMsb c) = 0#7 ↔ c = crc7 bits) ∧
  (∀ f : RspFormat, f.checksCrc = true ↔ f = .r1 ∨ f = .r1b ∨ f = .r6 ∨ f = .r7 ∨ f = .r2) ∧
  (∀ (index : BitVec 6) (f : RspFormat) (rsp : Rsp),
    checkRsp index f rsp = some .rspCrc ↔ f.checksCrc = true ∧ rsp.crcField ≠ rsp.computedCrc) ∧
  (∀ (index : BitVec 6) (payload : Word) (crc : BitVec 7),
    (Rsp.rsp48 index payload crc).crcField = (rspFrame index payload crc).extractLsb' 1 7 ∧
    (Rsp.rsp48 index payload crc).computedCrc =
      crc7 (bitsMsb ((rspFrame index payload crc).extractLsb' 8 40))) ∧
  (∀ content : Reg128,
    (Rsp.rsp136 content).crcField = (rsp136Frame content).extractLsb' 1 7 ∧
    (Rsp.rsp136 content).computedCrc = crc7 (bitsMsb ((rsp136Frame content).extractLsb' 8 120)))

/-- R134, R135: inside its domain `field` is the number whose bit `j` is the bit at transmission position
`8N - off - 1 - j`, which is bit `7 - (p mod 8)` of byte `p div 8`; outside it is refused. -/
def Obligations.FieldReadsTheTransmittedBits : Prop :=
  ∀ (bs : List Byte) (off len : Nat),
    (1 ≤ len ∧ len ≤ 32 ∧ off + len ≤ 8 * bs.length →
      ∃ v, field bs off len = some v ∧ v < 2 ^ len ∧
        ∀ j, j < len →
          let p := 8 * bs.length - off - 1 - j
          v.testBit j = (bs.getD (p / 8) 0).getLsbD (7 - p % 8)) ∧
    (¬(1 ≤ len ∧ len ≤ 32 ∧ off + len ≤ 8 * bs.length) → field bs off len = none) ∧
    field [0, 0, 0, 0, 0, 0x09, 0x03, 0xFF, 0xC0, 0x03, 0x80, 0, 0, 0, 0, 0x13] 62 12 = some 4095

/-- R137: the three CSD fields are `field` reads of the 16 bytes, and are register bits 83:80, 73:62, 49:47. -/
def Obligations.CsdFieldsAreRegisterBits : Prop :=
  ∀ csd : Reg128,
    field (bytes16 csd) 80 4 = some (csdReadBlLen csd) ∧ csdReadBlLen csd = (csd.extractLsb' 80 4).toNat ∧
    field (bytes16 csd) 62 12 = some (csdCSize csd) ∧ csdCSize csd = (csd.extractLsb' 62 12).toNat ∧
    field (bytes16 csd) 47 3 = some (csdCSizeMult csd) ∧ csdCSizeMult csd = (csd.extractLsb' 47 3).toNat

/-- R138: the capacity formula, its bounds, and the worked example. -/
def Obligations.CapacityFitsItsRegisters : Prop :=
  (∀ csd : Reg128,
    csdBlockLen csd = 2 ^ csdReadBlLen csd ∧
    csdBlockCount csd = (csdCSize csd + 1) * 2 ^ (csdCSizeMult csd + 2) ∧
    csdDeviceSize csd = csdBlockCount csd * csdBlockLen csd ∧
    csdBlockLen csd ≤ 2 ^ 15 ∧ csdBlockCount csd ≤ 2 ^ 21 ∧ csdDeviceSize csd ≤ 2 ^ 36 ∧
    (∀ s : State, s.session.csd = csd →
      (finishParse s).session.blockLen.toNat = csdBlockLen csd ∧
      (finishParse s).session.blockCount.toNat = csdBlockCount csd ∧
      (finishParse s).session.deviceSize.toNat = csdDeviceSize csd)) ∧
  (∀ csd : Reg128, csdCSize csd = 4095 → csdCSizeMult csd = 7 → csdReadBlLen csd = 9 →
    csdDeviceSize csd = 0x40000000 ∧ csdBlockLen csd = 512 ∧ csdBlockCount csd = 2097152)

/-- R66, R67: a block address and the offset in it make up the address, and an aligned window holds exactly the
addresses of its block; an empty cache holds none. -/
def Obligations.WindowHoldsExactlyItsBlock : Prop :=
  (∀ a : Word, (blockBase a).toNat + blockOff a = a.toNat ∧ blockOff a < 512 ∧ blockBase a &&& 0x1FF#32 = 0#32) ∧
  (∀ a : Word, inWindow Config.cacheInvalid a = false) ∧
  (∀ base a : Word, base &&& 0x1FF#32 = 0#32 → (inWindow base a = true ↔ blockBase a = base))

/-- R111, R132, R133: what a response leaves in `RB`, and what the decoders read there, whatever the unspecified
bytes are. -/
def Obligations.ResponseBufferHoldsThePayloadTwice : Prop :=
  ∀ (pad : Reg128) (index : BitVec 6) (payload : Word) (crc : BitVec 7) (content : Reg128),
    be32 (assembleRb pad (.rsp48 index payload crc)).toList 0 = payload ∧
    be32 (assembleRb pad (.rsp48 index payload crc)).toList 8 = payload ∧
    decodeOcr (assembleRb pad (.rsp48 index payload crc)) = payload ∧
    decodeRca (assembleRb pad (.rsp48 index payload crc)) = payload.extractLsb' 16 16 ∧
    (∀ i, i < 16 → (assembleRb pad (.rsp136 content)).toList[i]? = some (content.extractLsb' (120 - 8 * i) 8)) ∧
    val128 (assembleRb pad (.rsp136 content)) = content

/-- R114, R115, R142, R143, R351: the lengths of the data frames, which bit of which byte each line carries, and the
checksums they carry: crc16 is the register of R142 run bit by bit from 0 over the bits of the bytes, each byte bit 7
first, ends at 0 over a string and its own checksum, and is taken of each line of the 4-bit bus on its own. -/
def Obligations.DataFramesInterleaveTheirLines : Prop :=
  (∀ (b : Block) (crc : BitVec 16) (j : Nat),
    (dataFrame1 b crc).length = dataFrameLength false ∧ (dataFrame4 b j crc).length = dataFrameLength true) ∧
  (∀ (bs : List Byte) (j k : Nat), k < bs.length →
    (line4 bs j)[2 * k]? = some ((bs.getD k 0).getLsbD (4 + j)) ∧
    (line4 bs j)[2 * k + 1]? = some ((bs.getD k 0).getLsbD j)) ∧
  crc16Bits [] = 0#16 ∧
  (∀ (bits : List Bool) (b : Bool),
    crc16Bits (bits ++ [b]) =
      (crc16Bits bits <<< 1) ^^^ if (crc16Bits bits).getLsbD 15 ^^ b then 0x1021#16 else 0#16) ∧
  (∀ (bits : List Bool) (c : BitVec 16), crc16Bits (bits ++ bitsMsb c) = 0#16 ↔ c = crc16Bits bits) ∧
  (∀ bs : List Byte,
    (∀ k, k < 8 * bs.length → (bitsOfBytes bs)[k]? = some ((bs.getD (k / 8) 0).getLsbD (7 - k % 8))) ∧
    (bitsOfBytes bs).length = 8 * bs.length ∧ crc16 bs = crc16Bits (bitsOfBytes bs) ∧
    lineCrcs bs =
      (crc16Bits (line4 bs 3), crc16Bits (line4 bs 2), crc16Bits (line4 bs 1), crc16Bits (line4 bs 0))) ∧
  crc16 [0x31, 0x32, 0x33, 0x34, 0x35, 0x36, 0x37, 0x38, 0x39] = 0x31C3#16

/-- R63, R64, R198, R204 (e): realization B's packing and bursts, at any `WORDS_PER_POLL`, move the block's bytes
unchanged, and its four response words reassemble to the bytes the contract stores. -/
def Obligations.RealizationMovesTheSameBytes : Prop :=
  (∀ (k : Nat) (b : Block), 1 ≤ k → moveBlock k b.toList = b.toList) ∧
  (∀ (content pad : Reg128),
    regBytes (reassemble (rspWords (.rsp136 content))) = assembleRb pad (.rsp136 content)) ∧
  (∀ f : Frame, shiftIn (shiftOut f) = f.toNat)

/-- R122: the transfer-type words of realization B. -/
def Obligations.TransferTypeWords : Prop :=
  xferTyp Cmd.goIdleState.descriptor = 0x00 ∧ xferTyp Cmd.allSendCid.descriptor = 0x05 ∧
  xferTyp Cmd.sdSendOpCond.descriptor = 0x02 ∧ xferTyp Cmd.selectCard.descriptor = 0x07 ∧
  xferTyp Cmd.setBlocklen.descriptor = 0x06 ∧ xferTyp Cmd.readSingleBlock.descriptor = 0x1E

/-- R208, R199, R294: a wait ends with success exactly at the first poll that sees the condition before the budget is used
up at an earlier one, with failure exactly at the first that does not see it and finds the budget used up, and goes on
while there is neither; a condition already true succeeds at any budget; the data wait never gives out the transient
condition. -/
def Obligations.WaitsEndByConditionOrBudget : Prop :=
  ∀ (t0 budget : Nat) (polls : List Poll),
    (waitUntil t0 budget polls = some true ↔
      ∃ before p after, polls = before ++ p :: after ∧ p.ready = true ∧
        ∀ q ∈ before, q.ready = false ∧ q.atMs - t0 < budget) ∧
    (waitUntil t0 budget polls = some false ↔
      ∃ before p after, polls = before ++ p :: after ∧ p.ready = false ∧ budget ≤ p.atMs - t0 ∧
        ∀ q ∈ before, q.ready = false ∧ q.atMs - t0 < budget) ∧
    (waitUntil t0 budget polls = none ↔ ∀ q ∈ polls, q.ready = false ∧ q.atMs - t0 < budget) ∧
    (∀ p : Poll, p.ready = true → waitUntil t0 budget (p :: polls) = some true) ∧
    (∀ st, dataWait t0 polls = some st → st = .ok ∨ st = .timeout)

/-- R291, R292: the status codes and the pairing of failure kinds with statuses. -/
def Obligations.StatusCodesAndPairing : Prop :=
  [Status.ok, .genericFailure, .commandError, .timeout, .transientFifoCondition, .crcError].map Status.code =
    [0, 1, 2, 3, 4, 5] ∧
  Status.ofCode 6 = none ∧ Status.ofCode 7 = none ∧
  statusOf none = .ok ∧ statusOf (some .cmdTimeout) = .timeout ∧ statusOf (some .dataTimeout) = .timeout ∧
  statusOf (some .rspCrc) = .crcError ∧ statusOf (some .dataCrc) = .crcError ∧
  statusOf (some .cmdIndex) = .commandError

/-! ## The card commands -/

/-- R161, R168: GO_IDLE_STATE and DESELECT_CARD run to `Ok` from every state, whatever the card does, having sent
their one frame. -/
def Obligations.CommandsWithoutResponseSucceed : Prop :=
  ∀ s : State,
    (Completes .goIdleState s fun t =>
      CommandDone s t [cmdFrame 0#6 0#32] true .ok ∧ t.cache = s.cache) ∧
    (Completes .deselectCard s fun t =>
      CommandDone s t [cmdFrame 7#6 0#32] false .ok ∧ t.cache = s.cache)

/-- R162: SEND_OP_COND takes any 48-bit response as it is, neither CRC nor index compared, and times out without
one. -/
def Obligations.SendOpCondTakesTheOcrUnchecked : Prop :=
  ∀ (s : State) (arg : Word),
    ((answerAt s 0).rsp = .noResponse →
      Completes (.sendOpCond arg) s fun t =>
        CommandDone s t [cmdFrame 1#6 arg] true .timeout ∧ t.cache = s.cache ∧
        s.nowMs + Config.tCmdMs ≤ t.nowMs) ∧
    (∀ idx payload crc, (answerAt s 0).rsp = .rsp48 idx payload crc →
      Completes (.sendOpCond arg) s fun t =>
        CommandDone s t [cmdFrame 1#6 arg] true .ok ∧ t.cache = s.cache ∧ decodeOcr t.rb = payload) ∧
    (∀ content, (answerAt s 0).rsp = .rsp136 content → exec (.sendOpCond arg) s = .refused .answerLength)

/-- R163, R170: ALL_SEND_CID and SEND_CSD store the 128 register bits when their CRC is good; the index position is not
compared. -/
def Obligations.RegisterCommandsStoreTheRegister : Prop :=
  ∀ (s : State) (arg : Word) (i : Instr) (index : BitVec 6) (a : Word),
    (i, index, a) ∈ [(Instr.allSendCid, 2#6, 0#32), (Instr.sendCsd arg, 9#6, arg)] →
    ((answerAt s 0).rsp = .noResponse →
      Completes i s fun t =>
        CommandDone s t [cmdFrame index a] true .timeout ∧ t.cache = s.cache ∧
        s.nowMs + Config.tCmdMs ≤ t.nowMs) ∧
    (∀ content, (answerAt s 0).rsp = .rsp136 content →
      (regCrcGood content = true →
        Completes i s fun t =>
          CommandDone s t [cmdFrame index a] true .ok ∧ t.cache = s.cache ∧ t.rb = regBytes content) ∧
      (regCrcGood content = false →
        Completes i s fun t =>
          CommandDone s t [cmdFrame index a] true .crcError ∧ t.cache = s.cache)) ∧
    (∀ idx payload crc, (answerAt s 0).rsp = .rsp48 idx payload crc → exec i s = .refused .answerLength)

/-- R164, R165, R169, R173, R175 with R110 and R296: the commands with a checked 48-bit response. A wrong CRC comes
before a wrong index; a good response is in `RB` twice. -/
def Obligations.CheckedCommandsFollowTheirAnswer : Prop :=
  ∀ (s : State) (arg : Word) (i : Instr) (index : BitVec 6) (a : Word) (ls : Bool),
    (i, index, a, ls) ∈
      [(Instr.setRelativeAddr, 3#6, 0x00010000#32, true), (Instr.sendRelativeAddr, 3#6, 0#32, true),
        (Instr.sendIfCond, 8#6, 0x000001AA#32, true), (Instr.setBlocklen, 16#6, 512#32, false),
        (Instr.appCmd arg, 55#6, arg, false)] →
    ((answerAt s 0).rsp = .noResponse →
      Completes i s fun t =>
        CommandDone s t [cmdFrame index a] ls .timeout ∧ t.cache = s.cache ∧
        s.nowMs + Config.tCmdMs ≤ t.nowMs) ∧
    (∀ idx payload crc, (answerAt s 0).rsp = .rsp48 idx payload crc →
      (crc ≠ rspCrc idx payload →
        Completes i s fun t =>
          CommandDone s t [cmdFrame index a] ls .crcError ∧ t.cache = s.cache) ∧
      (crc = rspCrc idx payload → idx ≠ index →
        Completes i s fun t =>
          CommandDone s t [cmdFrame index a] ls .commandError ∧ t.cache = s.cache) ∧
      (crc = rspCrc idx payload → idx = index →
        Completes i s fun t =>
          CommandDone s t [cmdFrame index a] ls .ok ∧ t.cache = s.cache ∧
          be32 t.rb.toList 0 = payload ∧ be32 t.rb.toList 8 = payload)) ∧
    (∀ content, (answerAt s 0).rsp = .rsp136 content → exec i s = .refused .answerLength)

/-- R167, R171, R197: the commands with a busy wait. After a good response they end `Ok` when the card releases busy
and with a timeout of at least `T_BUSY_MS` when it does not; a bad response is reported before the wait. -/
def Obligations.BusyCommandsWaitForRelease : Prop :=
  ∀ (s : State) (arg : Word) (i : Instr) (index : BitVec 6) (a : Word),
    (i, index, a) ∈ [(Instr.selectCard arg, 7#6, arg), (Instr.stopTransmission, 12#6, 0#32)] →
    ((answerAt s 0).rsp = .noResponse →
      Completes i s fun t =>
        CommandDone s t [cmdFrame index a] false .timeout ∧ t.cache = s.cache ∧
        s.nowMs + Config.tCmdMs ≤ t.nowMs) ∧
    (∀ idx payload crc, (answerAt s 0).rsp = .rsp48 idx payload crc →
      (crc ≠ rspCrc idx payload →
        Completes i s fun t =>
          CommandDone s t [cmdFrame index a] false .crcError ∧ t.cache = s.cache) ∧
      (crc = rspCrc idx payload → idx ≠ index →
        Completes i s fun t =>
          CommandDone s t [cmdFrame index a] false .commandError ∧ t.cache = s.cache) ∧
      (crc = rspCrc idx payload → idx = index → (answerAt s 0).busyReleased = true →
        Completes i s fun t =>
          CommandDone s t [cmdFrame index a] false .ok ∧ t.cache = s.cache ∧
          be32 t.rb.toList 0 = payload ∧ be32 t.rb.toList 8 = payload) ∧
      (crc = rspCrc idx payload → idx = index → (answerAt s 0).busyReleased = false →
        Completes i s fun t =>
          CommandDone s t [cmdFrame index a] false .timeout ∧ t.cache = s.cache ∧
          s.nowMs + Config.tBusyMs ≤ t.nowMs)) ∧
    (∀ content, (answerAt s 0).rsp = .rsp136 content → exec i s = .refused .answerLength)

/-- R193, R174, R166: with a prefix that fails, only the APP_CMD frame with the current RCA goes out and the
application command reports the prefix's failure. -/
def Obligations.FailedPrefixEndsTheApplicationCommand : Prop :=
  ∀ (s : State) (arg : Word) (i : Instr) (ls : Bool),
    (i, ls) ∈ [(Instr.setBusWidth, false), (Instr.sdSendOpCond arg, true)] →
    ((answerAt s 0).rsp = .noResponse →
      Completes i s fun t =>
        CommandDone s t [cmdFrame 55#6 (s.session.rca ++ 0#16)] ls .timeout ∧ t.cache = s.cache ∧
        s.nowMs + Config.tCmdMs ≤ t.nowMs) ∧
    (∀ idx payload crc, (answerAt s 0).rsp = .rsp48 idx payload crc →
      (crc ≠ rspCrc idx payload →
        Completes i s fun t =>
          CommandDone s t [cmdFrame 55#6 (s.session.rca ++ 0#16)] ls .crcError ∧ t.cache = s.cache) ∧
      (crc = rspCrc idx payload → idx ≠ 55#6 →
        Completes i s fun t =>
          CommandDone s t [cmdFrame 55#6 (s.session.rca ++ 0#16)] ls .commandError ∧ t.cache = s.cache)) ∧
    (∀ content, (answerAt s 0).rsp = .rsp136 content → exec i s = .refused .answerLength)

/-- R166: after a good prefix SET_BUS_WIDTH sends CMD6 with argument 2 and reports its checked R1 answer; `bus_wide` is
its issuer's to write. -/
def Obligations.SetBusWidthSendsThePair : Prop :=
  ∀ (s : State) (w : Word), (answerAt s 0).rsp = goodRsp 55#6 w →
    let frames := [cmdFrame 55#6 (s.session.rca ++ 0#16), cmdFrame 6#6 2#32]
    ((answerAt s 1).rsp = .noResponse →
      Completes .setBusWidth s fun t =>
        CommandDone s t frames false .timeout ∧ t.cache = s.cache ∧ s.nowMs + Config.tCmdMs ≤ t.nowMs) ∧
    (∀ idx payload crc, (answerAt s 1).rsp = .rsp48 idx payload crc →
      (crc ≠ rspCrc idx payload →
        Completes .setBusWidth s fun t => CommandDone s t frames false .crcError ∧ t.cache = s.cache) ∧
      (crc = rspCrc idx payload → idx ≠ 6#6 →
        Completes .setBusWidth s fun t => CommandDone s t frames false .commandError ∧ t.cache = s.cache) ∧
      (crc = rspCrc idx payload → idx = 6#6 →
        Completes .setBusWidth s fun t =>
          CommandDone s t frames false .ok ∧ t.cache = s.cache ∧ be32 t.rb.toList 0 = payload)) ∧
    (∀ content, (answerAt s 1).rsp = .rsp136 content → exec .setBusWidth s = .refused .answerLength)

/-- R174: after a good prefix SD_SEND_OP_COND sends CMD41 with its argument and takes the OCR unchecked. -/
def Obligations.SdSendOpCondSendsThePair : Prop :=
  ∀ (s : State) (arg w : Word), (answerAt s 0).rsp = goodRsp 55#6 w →
    let frames := [cmdFrame 55#6 (s.session.rca ++ 0#16), cmdFrame 41#6 arg]
    ((answerAt s 1).rsp = .noResponse →
      Completes (.sdSendOpCond arg) s fun t =>
        CommandDone s t frames true .timeout ∧ t.cache = s.cache ∧ s.nowMs + Config.tCmdMs ≤ t.nowMs) ∧
    (∀ idx payload crc, (answerAt s 1).rsp = .rsp48 idx payload crc →
      Completes (.sdSendOpCond arg) s fun t =>
        CommandDone s t frames true .ok ∧ t.cache = s.cache ∧ decodeOcr t.rb = payload) ∧
    (∀ content, (answerAt s 1).rsp = .rsp136 content →
      exec (.sdSendOpCond arg) s = .refused .answerLength)

/-- R172, R198: READ_SINGLE_BLOCK after a good response. The 512 bytes are in `CACHE.buf` exactly when a data frame of
the bus width's form came with good checksums. That the command alone leaves the cache as the refill's read does (R31,
R79, R269), the window of the block read with a card acquired, and empty otherwise, is the model's choice (assumption
log 10). -/
def Obligations.ReadSingleBlockFillsTheBuffer : Prop :=
  ∀ (s : State) (addr payload : Word), (answerAt s 0).rsp = goodRsp 17#6 payload →
    let failed (st : Status) (t : State) : Prop :=
      CommandDone s t [cmdFrame 17#6 addr] false st ∧ t.cache.base = Config.cacheInvalid
    let filled (bytes : Block) (t : State) : Prop :=
      CommandDone s t [cmdFrame 17#6 addr] false .ok ∧ t.cache.buf = bytes ∧
      (s.session.acquired = true → addr &&& 0x1FF#32 = 0#32 → t.cache.base = addr) ∧
      (s.session.acquired = false ∨ addr &&& 0x1FF#32 ≠ 0#32 → t.cache.base = Config.cacheInvalid) ∧
      be32 t.rb.toList 0 = payload
    ((answerAt s 0).data = .noData →
      Completes (.readSingleBlock addr) s fun t => failed .timeout t ∧ s.nowMs + Config.tDataMs ≤ t.nowMs) ∧
    (∀ bytes crc, (answerAt s 0).data = .data bytes crc →
      (s.busWide = false → crc = crc16 bytes.toList → Completes (.readSingleBlock addr) s (filled bytes)) ∧
      (s.busWide = false → crc ≠ crc16 bytes.toList → Completes (.readSingleBlock addr) s (failed .crcError)) ∧
      (s.busWide = true → exec (.readSingleBlock addr) s = .refused .dataFormat)) ∧
    (∀ bytes c3 c2 c1 c0, (answerAt s 0).data = .data4 bytes c3 c2 c1 c0 →
      (s.busWide = true → (c3, c2, c1, c0) = lineCrcs bytes.toList →
        Completes (.readSingleBlock addr) s (filled bytes)) ∧
      (s.busWide = true → (c3, c2, c1, c0) ≠ lineCrcs bytes.toList →
        Completes (.readSingleBlock addr) s (failed .crcError)) ∧
      (s.busWide = false → exec (.readSingleBlock addr) s = .refused .dataFormat))

/-- R172, R110, R296: READ_SINGLE_BLOCK without a good response; no data is received, and the cache is left empty, as
after a refill that fails (R269; for the command alone the model's choice, assumption log 10). -/
def Obligations.ReadSingleBlockReportsABadResponse : Prop :=
  ∀ (s : State) (addr : Word),
    let failed (st : Status) (t : State) : Prop :=
      CommandDone s t [cmdFrame 17#6 addr] false st ∧ t.cache.base = Config.cacheInvalid
    ((answerAt s 0).rsp = .noResponse →
      Completes (.readSingleBlock addr) s fun t => failed .timeout t ∧ s.nowMs + Config.tCmdMs ≤ t.nowMs) ∧
    (∀ idx payload crc, (answerAt s 0).rsp = .rsp48 idx payload crc →
      (crc ≠ rspCrc idx payload → Completes (.readSingleBlock addr) s (failed .crcError)) ∧
      (crc = rspCrc idx payload → idx ≠ 17#6 → Completes (.readSingleBlock addr) s (failed .commandError))) ∧
    (∀ content, (answerAt s 0).rsp = .rsp136 content →
      exec (.readSingleBlock addr) s = .refused .answerLength)

/-- R200, R202: what any card command leaves unchanged; only READ_SINGLE_BLOCK touches the cache; every flag is 0
afterwards, and in realization A the card clock is stopped, whatever status the command ends with. -/
def Obligations.CardCommandsKeepTheirFrame : Prop :=
  ∀ (i : Instr) (c : Cmd) (arg : Word) (s t : State), cmdOf i = some (c, arg) → exec i s = .next t →
    CommandFrame s t ∧ (c ≠ .readSingleBlock → t.cache = s.cache) ∧ t.st = Flags.clear ∧
    (s.cfg.realization = .bitPulse → t.clkRun = false) ∧
    (s.cfg.realization ≠ .bitPulse → t.clkRun = s.clkRun) ∧ t.clkSel = clockOf c.descriptor.ls

/-- R191, R340, R346: a command whose clock is already selected adds frames only; any other first changes the rate and
delays `CLK_SETTLE_US`, and every frame goes out at the new rate, after the delay: the timer, which counts milliseconds,
shows at least so many of them more as the microseconds make, rounded up (assumption log 12). -/
def Obligations.ClockSettlesBeforeTheFirstFrame : Prop :=
  ∀ (i : Instr) (c : Cmd) (arg : Word) (s t : State), cmdOf i = some (c, arg) → exec i s = .next t →
    ∃ evs : List Event,
      (∀ e ∈ evs, ∃ f, e.kind = .frame f (clockOf c.descriptor.ls)) ∧
      (s.clkSel = clockOf c.descriptor.ls → t.trace = evs ++ s.trace) ∧
      (s.clkSel ≠ clockOf c.descriptor.ls →
        t.trace = evs ++ ⟨.delayUs s.cfg.clkSettleUs, s.nowMs⟩ ::
          ⟨.clock (clockOf c.descriptor.ls), s.nowMs⟩ :: s.trace ∧
        ∀ e ∈ evs, 1000 * s.nowMs + s.cfg.clkSettleUs ≤ 1000 * e.atMs)

/-- R176, R201: the statuses each row can return. -/
def Obligations.StatusesOfEachCommand : Prop :=
  ∀ (i : Instr) (c : Cmd) (arg : Word) (s t : State), cmdOf i = some (c, arg) → exec i s = .next t →
    ∃ st, t.result = .status st ∧
      (st = .ok ∨ st = .timeout ∨ st = .crcError ∨ st = .commandError) ∧
      (c = .goIdleState ∨ c = .deselectCard → st = .ok) ∧
      (c = .sendOpCond → st = .ok ∨ st = .timeout) ∧
      (c = .allSendCid ∨ c = .sendCsd → st = .ok ∨ st = .timeout ∨ st = .crcError)

/-! ## The acquisition -/

/-- R249: every edge of `acq_state` with its event: an ACQUIRE starts in `Reset`; each rule of a running acquisition goes
where the status of its command, the power-up bit or the end of its loop sends it; the three states outside an
acquisition have no rule. With R220, R223, R239: the two time-out marks start clear, and each is set by a time-out of its
probe and by nothing else. -/
def Obligations.AcquisitionFollowsTheTransitionTable : Prop :=
  (∀ s : State, (acqStart s).acqState = .reset ∧ (acqStart s).sdTimedOut = false ∧
    (acqStart s).mmcTimedOut = false) ∧
  ∀ s t : State, acqStep s = .ok t →
    let commandGoes (c : Cmd) (arg : Word) (next : AcqState) : Prop :=
      ∃ st u, executeCmd c arg s = .ok (st, u) ∧ t.acqState = if st = .ok then next else .failed
    let loopGoes (r : Res Bool) (next : AcqState) : Prop :=
      ∃ ok u, r = .ok (ok, u) ∧ t.acqState = if ok then next else .failed
    (s.acqState = .idle ∨ s.acqState = .done ∨ s.acqState = .failed → t = s) ∧
    (s.acqState = .reset → t.acqState = .trySdOpCond) ∧
    (s.acqState = .trySdOpCond → ∃ st u, executeCmd .sdSendOpCond 0 s = .ok (st, u) ∧
      t.acqState = (if st = .ok then .checkSdOcr else if st = .timeout then .tryMmcOpCond else .failed) ∧
      t.sdTimedOut = if st = .timeout then true else s.sdTimedOut) ∧
    (s.acqState ≠ .trySdOpCond → t.sdTimedOut = s.sdTimedOut) ∧
    (s.acqState = .checkSdOcr → t.acqState = if s.ocr.getLsbD 31 then .negotiateSdOcr else .pollSdOcr) ∧
    (s.acqState = .pollSdOcr → loopGoes (pollLoop .sd s) .negotiateSdOcr) ∧
    (s.acqState = .negotiateSdOcr → loopGoes (negotiateLoop .sd s) .getCidSd) ∧
    (s.acqState = .getCidSd → commandGoes .allSendCid 0 .getRcaSd) ∧
    (s.acqState = .getRcaSd → commandGoes .sendRelativeAddr 0 .getCsdSd) ∧
    (s.acqState = .getCsdSd → commandGoes .sendCsd (s.session.rca ++ 0#16) .done) ∧
    (s.acqState = .tryMmcOpCond → ∃ st u, executeCmd .sendOpCond 0 s = .ok (st, u) ∧
      t.acqState = (if st = .ok then .checkMmcOcr else .failed) ∧
      t.mmcTimedOut = if st = .timeout then true else s.mmcTimedOut) ∧
    (s.acqState ≠ .tryMmcOpCond → t.mmcTimedOut = s.mmcTimedOut) ∧
    (s.acqState = .checkMmcOcr → t.acqState = if s.ocr.getLsbD 31 then .negotiateMmcOcr else .pollMmcOcr) ∧
    (s.acqState = .pollMmcOcr → loopGoes (pollLoop .mmc s) .negotiateMmcOcr) ∧
    (s.acqState = .negotiateMmcOcr → loopGoes (negotiateLoop .mmc s) .getCidMmc) ∧
    (s.acqState = .getCidMmc → commandGoes .allSendCid 0 .setRcaMmc) ∧
    (s.acqState = .setRcaMmc → commandGoes .setRelativeAddr 0x00010000#32 .getCsdMmc) ∧
    (s.acqState = .getCsdMmc → commandGoes .sendCsd (s.session.rca ++ 0#16) .done)

/-- R227, R225, R340, R75 (c): the poll loop makes at most `POLL_TRIES` tries, and what it adds to the trace is, for each
try, a delay of `POLL_SPACING_MS` and then the frames of one operating-condition command with argument 0, at least that
much later; it ends with success exactly when the last OCR has the power-up bit, and with failure only when every try is
used up. -/
def Obligations.PollLoopIsBounded : Prop :=
  ∀ (b : Branch) (s t : State) (ok : Bool), pollLoop b s = .ok (ok, t) →
    t.tries ≤ Config.pollTries ∧ s.nowMs + t.tries * Config.pollSpacingMs ≤ t.nowMs ∧
    (ok = true → 1 ≤ t.tries ∧ ocrReady t.ocr = true) ∧ (ok = false → t.tries = Config.pollTries) ∧
    (framesOf t.trace).length ≤ (framesOf s.trace).length + 2 * Config.pollTries ∧
    ∃ us : List LoopTurn, us.length = t.tries ∧
      t.trace = us.flatMap (LoopTurn.trace Config.pollSpacingMs) ++ s.trace ∧
      SpacedTurns Config.pollSpacingMs (opCondFrames b s.session.rca 0#32) s.nowMs us

/-- R228, R229, R106, R340: the negotiation loop's argument is the OCR masked with the host's windows, so bits 31 and 30
are never sent: every frame it adds is the prefix or the branch's operating-condition command with that argument. It
makes at most `NEG_MAX_TRIES` tries, the first at once and a delay of `NEG_DELAY_MS` before each of the others; it
succeeds only on the power-up bit, with the elapsed time since the loop was entered recorded, and fails only at a
ceiling. No delay begins once `NEG_MAX_MS` have passed (R228); in an implementation that looks again after the delay no
try but the first does either (R229). Which of the two it is, is left open (assumption log 24). -/
def Obligations.NegotiationIsBounded : Prop :=
  ∀ (b : Branch) (s t : State) (ok : Bool), s.cfg.wf = true → negotiateLoop b s = .ok (ok, t) →
    t.negT0 = s.nowMs ∧ t.negArg = s.ocr &&& s.cfg.hostOcrMask ∧ t.negArg.getLsbD 31 = false ∧ t.negArg.getLsbD 30 = false ∧
    1 ≤ t.tries ∧ t.tries ≤ s.cfg.negMaxTries ∧ s.nowMs + (t.tries - 1) * Config.negDelayMs ≤ t.nowMs ∧
    (ok = true → ocrReady t.ocr = true ∧
      t.session.acquireTimeMs = BitVec.ofNat 32 (min (t.nowMs - t.negT0) (2 ^ 32 - 1))) ∧
    (ok = false → s.cfg.negMaxTries ≤ t.tries ∨ s.cfg.negMaxMs ≤ t.nowMs - t.negT0) ∧
    (framesOf t.trace).length ≤ (framesOf s.trace).length + 2 * s.cfg.negMaxTries ∧
    ∃ (us : List LoopTurn) (first last : List Event), us.length + 1 = t.tries ∧
      t.trace = last ++ us.flatMap (LoopTurn.trace Config.negDelayMs) ++ first ++ s.trace ∧
      framesOf first ∈ opCondFrames b s.session.rca t.negArg ∧ undelayed first ∧
      SpacedTurns Config.negDelayMs (opCondFrames b s.session.rca t.negArg) s.nowMs us ∧
      (∀ u ∈ us, ∀ e ∈ first, e.atMs ≤ u.delayAt) ∧
      (∀ u ∈ us, u.delayAt < s.nowMs + s.cfg.negMaxMs) ∧
      (s.cfg.negRecheck = true →
        ∀ u ∈ us, ∃ e, u.events.getLast? = some e ∧ e.atMs < s.nowMs + s.cfg.negMaxMs) ∧
      (last = [] ∨
        (ok = false ∧ s.cfg.negRecheck = true ∧ ∃ d, last = [⟨.delayMs Config.negDelayMs, d⟩]))

/-- R251, R247, R248, R49 (d): an ACQUIRE ends acquired with the capacity parsed from the CSD it read, or failed with the
whole session zero; never in between. The failure is `NoCard` exactly when both probes timed out, and otherwise
`IdentifyFailed`; that the two time-out marks can still be read after the ACQUIRE is the model's choice (assumption log
25). -/
def Obligations.AcquireEndsAcquiredOrCleared : Prop :=
  ∀ s t : State, exec .acquire s = .next t →
    (t.acqState = .done ∧ t.acqResult = .acquired ∧ t.result = .acquired true ∧ t.session.acquired = true ∧
      t.session.blockLen.toNat = csdBlockLen t.session.csd ∧
      t.session.blockCount.toNat = csdBlockCount t.session.csd ∧
      t.session.deviceSize.toNat = csdDeviceSize t.session.csd ∧
      regCrcGood t.session.csd = true ∧ regCrcGood t.session.cid = true ∧
      (t.session.sd = false → t.session.rca = 1#16)) ∨
    (t.acqState = .failed ∧
      t.acqResult = (if t.sdTimedOut = true ∧ t.mmcTimedOut = true then .noCard else .identifyFailed) ∧
      t.result = .acquired false ∧ t.session = Session.zero)

/-- R220, R73, R295, R112: from between operations an ACQUIRE always ends, whatever the card does, except that an answer
of the wrong length is refused: then, with the card silent from some answer on, the ACQUIRE ends, having sent in the
place of that answer a frame whose command expects another length. While an operation is in progress it is refused. -/
def Obligations.AcquireAlwaysEnds : Prop :=
  ∀ s : State,
    (s.between = true →
      (∃ t, exec .acquire s = .next t) ∨
      (exec .acquire s = .refused .answerLength ∧
        ∃ (k : Nat) (t : State) (fs : List Frame) (f : Frame),
          exec .acquire { s with card := s.card.take k } = .next t ∧ framesOf t.trace = framesOf s.trace ++ fs ∧
          fs[k]? = some f ∧ misfit f (answerAt s k).rsp = true)) ∧
    (s.between = false → exec .acquire s = .refused .operationInProgress)

/-- R250: the frames one ACQUIRE sends are bounded by the try ceilings, whatever the card and the timer do. With R49 (a):
none of them is a SELECT_CARD, SET_BUS_WIDTH, SET_BLOCKLEN or READ_SINGLE_BLOCK, and a SEND_CSD goes out only after the
CMD3 that gave the card its RCA, carrying it. -/
def Obligations.AcquireSendsBoundedFrames : Prop :=
  ∀ s t : State, s.cfg.wf = true → exec .acquire s = .next t →
    ∃ fs : List Frame, framesOf t.trace = framesOf s.trace ++ fs ∧
      fs.length ≤ 2 + 2 * (1 + Config.pollTries + s.cfg.negMaxTries) + 3 ∧
      (∀ f ∈ fs, frameIndex f ∈ [0#6, 8#6, 55#6, 41#6, 1#6, 2#6, 3#6, 9#6]) ∧
      ∀ before f after, fs = before ++ f :: after → frameIndex f = 9#6 →
        (∃ g ∈ before, frameIndex g = 3#6) ∧
        (t.session.acquired = true → f = cmdFrame 9#6 (t.session.rca ++ 0#16))

/-- R220, R47, R346: what an ACQUIRE leaves unchanged, and what it always leaves: an empty cache, a 1-bit bus, flags 0
and the identification clock. -/
def Obligations.AcquireKeepsItsFrame : Prop :=
  ∀ s t : State, exec .acquire s = .next t →
    t.caller = s.caller ∧ t.desc = s.desc ∧ t.cfg = s.cfg ∧ t.port = s.port ∧ t.cache.buf = s.cache.buf ∧
    t.rfState = s.rfState ∧ t.cache.base = Config.cacheInvalid ∧ t.busWide = false ∧ t.st = Flags.clear ∧
    t.clkSel = .ident ∧ (s.cfg.realization ≠ .bitPulse → t.clkRun = s.clkRun)

/-- R252, R248, Scenario B: a card that answers nothing gives no card, after four frames (three without SEND_IF_COND), and
at least that many command waits. -/
def Obligations.SilentCardIsNoCard : Prop :=
  ∀ s : State, s.between = true → silentCard s = true →
    Completes .acquire s fun t =>
      t.result = .acquired false ∧ t.acqState = .failed ∧ t.acqResult = .noCard ∧ t.session = Session.zero ∧
      framesOf t.trace = framesOf s.trace ++ cmdFrame 0#6 0#32 ::
        ((if s.cfg.cmd8Enable then [cmdFrame 8#6 0x000001AA#32] else []) ++
          [cmdFrame 55#6 0#32, cmdFrame 1#6 0#32]) ∧
      s.nowMs + (if s.cfg.cmd8Enable then 3 else 2) * Config.tCmdMs ≤ t.nowMs

/-- R252, R232 to R236, Scenario A: an SD card that is not ready at first, not ready at `polls`, then ready, and then
answers every command well, is acquired with the CID, RCA and CSD it reported. -/
def Obligations.SdCardIsAcquired : Prop :=
  ∀ (s : State) (a0 a8 a2 a3 a9 : Answer) (first last neg : Answer × Answer) (polls : List (Answer × Answer))
    (rest : List Answer) (ocr rca : Word) (cid csd : Reg128),
    s.between = true → s.cfg.cmd8Enable = true →
    s.card = [a0, a8] ++ pairAnswers (first :: polls ++ [last, neg]) ++ [a2, a3, a9] ++ rest →
    (∀ c, a8.rsp ≠ .rsp136 c) →
    ocrPair false first → (∀ p ∈ polls, ocrPair false p) → polls.length < Config.pollTries →
    ocrPair true last → (∃ i c, last.2.rsp = .rsp48 i ocr c) → ocrPair true neg →
    a2.rsp = .rsp136 cid → regCrcGood cid = true → a3.rsp = goodRsp 3#6 rca →
    a9.rsp = .rsp136 csd → regCrcGood csd = true →
    Completes .acquire s fun t =>
      t.result = .acquired true ∧ t.acqState = .done ∧ t.acqResult = .acquired ∧
      t.session.acquired = true ∧ t.session.sd = true ∧ t.session.rca = rca.extractLsb' 16 16 ∧
      t.session.cid = cid ∧ t.session.csd = csd ∧ t.card = rest ∧
      framesOf t.trace = framesOf s.trace ++
        [cmdFrame 0#6 0#32, cmdFrame 8#6 0x000001AA#32] ++
        (List.replicate (polls.length + 2) [cmdFrame 55#6 0#32, cmdFrame 41#6 0#32]).flatten ++
        [cmdFrame 55#6 0#32, cmdFrame 41#6 (ocr &&& s.cfg.hostOcrMask),
          cmdFrame 2#6 0#32, cmdFrame 3#6 0#32, cmdFrame 9#6 (rca.extractLsb' 16 16 ++ 0#16)] ∧
      s.nowMs + (polls.length + 1) * Config.pollSpacingMs ≤ t.nowMs

/-- R252, R239 to R246: a card that lets the SD probe time out and answers CMD1 ready is acquired as an MMC card with the
fixed RCA 1. -/
def Obligations.MmcCardIsAcquired : Prop :=
  ∀ (s : State) (a0 a8 a55 a1 a1' a2 a3 a9 : Answer) (rest : List Answer) (i i' : BitVec 6) (ocr ocr' w : Word)
    (c c' : BitVec 7) (cid csd : Reg128),
    s.between = true → s.cfg.cmd8Enable = true →
    s.card = [a0, a8, a55, a1, a1', a2, a3, a9] ++ rest →
    (∀ r, a8.rsp ≠ .rsp136 r) → a55.rsp = .noResponse →
    a1.rsp = .rsp48 i ocr c → ocrReady ocr = true → a1'.rsp = .rsp48 i' ocr' c' → ocrReady ocr' = true →
    a2.rsp = .rsp136 cid → regCrcGood cid = true → a3.rsp = goodRsp 3#6 w →
    a9.rsp = .rsp136 csd → regCrcGood csd = true →
    Completes .acquire s fun t =>
      t.result = .acquired true ∧ t.acqState = .done ∧ t.acqResult = .acquired ∧
      t.session.acquired = true ∧ t.session.sd = false ∧ t.session.rca = 1#16 ∧
      t.session.cid = cid ∧ t.session.csd = csd ∧ t.card = rest ∧
      framesOf t.trace = framesOf s.trace ++
        [cmdFrame 0#6 0#32, cmdFrame 8#6 0x000001AA#32, cmdFrame 55#6 0#32, cmdFrame 1#6 0#32,
          cmdFrame 1#6 (ocr &&& s.cfg.hostOcrMask), cmdFrame 2#6 0#32, cmdFrame 3#6 0x00010000#32,
          cmdFrame 9#6 0x00010000#32]

/-! ## OPEN, READ, SEEK -/

/-- R260: OPEN is a test only. It answers `Ok` exactly when a card is acquired and changes nothing but the result it
returns; a malformed descriptor is refused. -/
def Obligations.OpenTestsForACard : Prop :=
  ∀ (s : State) (d : Desc), s.between = true →
    (d.start.toNat + d.length.toNat ≤ 2 ^ 32 ∧ d.cursor.toNat ≤ d.length.toNat →
      exec (.openDesc d) s =
        .next { s with result := .status (if s.session.acquired then .ok else .genericFailure) }) ∧
    (¬(d.start.toNat + d.length.toNat ≤ 2 ^ 32 ∧ d.cursor.toNat ≤ d.length.toNat) →
      exec (.openDesc d) s = .refused .malformedDescriptor)

/-- R272: SEEK is absolute and clamped to the end of the extent; it changes nothing but the result and the host-side
descriptor, card or no card; a malformed descriptor is refused. -/
def Obligations.SeekClampsToTheExtent : Prop :=
  ∀ (s : State) (d : Desc) (pos : Word), s.between = true →
    (d.start.toNat + d.length.toNat ≤ 2 ^ 32 ∧ d.cursor.toNat ≤ d.length.toNat →
      ∃ cursor : Word, cursor.toNat = min pos.toNat d.length.toNat ∧
        exec (.seek d pos) s =
          .next { s with result := .cursor cursor, desc := ⟨d.start, d.length, cursor⟩ }) ∧
    (¬(d.start.toNat + d.length.toNat ≤ 2 ^ 32 ∧ d.cursor.toNat ≤ d.length.toNat) →
      exec (.seek d pos) s = .refused .malformedDescriptor)

/-- R273: OPEN, READ and SEEK on a malformed descriptor, and a READ into a buffer shorter than the length, are refused.
With R73 and R295: so is any of them while an operation is in progress. -/
def Obligations.HostOperationsAreRefusedOutsideTheirDomain : Prop :=
  ∀ (s : State) (d : Desc) (bufSize length pos : Word),
    (s.between = false →
      exec (.openDesc d) s = .refused .operationInProgress ∧ exec (.seek d pos) s = .refused .operationInProgress ∧
      exec (.read d bufSize length) s = .refused .operationInProgress) ∧
    (s.between = true → ¬(d.start.toNat + d.length.toNat ≤ 2 ^ 32 ∧ d.cursor.toNat ≤ d.length.toNat) →
      exec (.openDesc d) s = .refused .malformedDescriptor ∧ exec (.seek d pos) s = .refused .malformedDescriptor ∧
      exec (.read d bufSize length) s = .refused .malformedDescriptor) ∧
    (s.between = true → d.start.toNat + d.length.toNat ≤ 2 ^ 32 → d.cursor.toNat ≤ d.length.toNat →
      bufSize.toNat < length.toNat → exec (.read d bufSize length) s = .refused .shortBuffer)

/-- R261: a READ with no card acquired, and a READ whose clipped length is 0, return at once with count 0 and the old
cursor; no command goes out and nothing else changes. -/
def Obligations.ReadOfNothingReturnsAtOnce : Prop :=
  ∀ (s : State) (d : Desc) (bufSize length : Word),
    s.between = true → descWf d = true → length.toNat ≤ bufSize.toNat →
    (s.session.acquired = false →
      exec (.read d bufSize length) s =
        .next { s with result := .read 0 .genericFailure d.cursor, desc := d }) ∧
    (s.session.acquired = true → length = 0 ∨ d.cursor = d.length →
      exec (.read d bufSize length) s = .next { s with result := .read 0 .ok d.cursor, desc := d })

/-- R270: a READ inside the cached window issues no command and copies the cached bytes; nothing else changes but the
returned count, status and cursor. -/
def Obligations.ReadInsideTheWindowUsesTheCache : Prop :=
  ∀ (s : State) (d : Desc) (bufSize length : Word),
    s.between = true → descWf d = true → length.toNat ≤ bufSize.toNat → s.session.acquired = true →
    cacheAligned s = true → Memory.wf s.caller = true →
    (∀ k, k < clip d length → inWindow s.cache.base (cardAddr d k) = true) →
    Completes (.read d bufSize length) s fun t =>
      t.result = .read (BitVec.ofNat 32 (clip d length)) .ok (BitVec.ofNat 32 (d.cursor.toNat + clip d length)) ∧
      t = { s with caller := t.caller, result := t.result, desc := t.desc } ∧
      t.desc = { d with cursor := BitVec.ofNat 32 (d.cursor.toNat + clip d length) } ∧
      ∀ x, Memory.get t.caller x =
        if x < clip d length then s.cache.buf.toList.getD (blockOff (cardAddr d 0) + x) 0
        else Memory.get s.caller x

/-- R264 to R269, R276, R263: a READ inside one block that is not cached, on the 1-bit bus: four frames, the block in the
cache, the bytes asked for in the caller's buffer. -/
def Obligations.ReadRefillsOneBlock : Prop :=
  ∀ (s : State) (d : Desc) (bufSize length p1 p2 p3 : Word) (a0 a1 a2 a3 : Answer) (rest : List Answer)
    (bytes : Block),
    s.between = true → descWf d = true → length.toNat ≤ bufSize.toNat → s.session.acquired = true →
    (s.session.sd && s.cfg.hostWide) = false → wideOnlySd s = true → Memory.wf s.caller = true →
    0 < clip d length → blockOff (cardAddr d 0) + clip d length ≤ 512 →
    inWindow s.cache.base (cardAddr d 0) = false →
    s.card = a0 :: a1 :: a2 :: a3 :: rest →
    a1.rsp = goodRsp 7#6 p1 → a1.busyReleased = true → a2.rsp = goodRsp 16#6 p2 → a3.rsp = goodRsp 17#6 p3 →
    a3.data = .data bytes (crc16 bytes.toList) →
    Completes (.read d bufSize length) s fun t =>
      t.result = .read (BitVec.ofNat 32 (clip d length)) .ok (BitVec.ofNat 32 (d.cursor.toNat + clip d length)) ∧
      t.desc = { d with cursor := BitVec.ofNat 32 (d.cursor.toNat + clip d length) } ∧
      framesOf t.trace = framesOf s.trace ++
        [cmdFrame 7#6 0#32, cmdFrame 7#6 (s.session.rca ++ 0#16), cmdFrame 16#6 512#32,
          cmdFrame 17#6 (blockBase (cardAddr d 0))] ∧
      t.cache = ⟨blockBase (cardAddr d 0), bytes⟩ ∧ t.card = rest ∧ t.clkSel = .oper ∧ t.busWide = s.busWide ∧
      t.session = s.session ∧ t.rfState = .idle ∧ t.st = Flags.clear ∧
      ∀ x, Memory.get t.caller x =
        if x < clip d length then bytes.toList.getD (blockOff (cardAddr d 0) + x) 0 else Memory.get s.caller x

/-- R264 to R269, R276, R266: the same on a wide host with an SD card: six frames, `bus_wide` set, the block received on
four lines. -/
def Obligations.ReadRefillsOneBlockWide : Prop :=
  ∀ (s : State) (d : Desc) (bufSize length p1 p2 p3 p4 p5 : Word) (a0 a1 a55 a6 a2 a3 : Answer)
    (rest : List Answer) (bytes : Block) (c3 c2 c1 c0 : BitVec 16),
    s.between = true → descWf d = true → length.toNat ≤ bufSize.toNat → s.session.acquired = true →
    (s.session.sd && s.cfg.hostWide) = true → Memory.wf s.caller = true →
    0 < clip d length → blockOff (cardAddr d 0) + clip d length ≤ 512 →
    inWindow s.cache.base (cardAddr d 0) = false →
    s.card = a0 :: a1 :: a55 :: a6 :: a2 :: a3 :: rest →
    a1.rsp = goodRsp 7#6 p1 → a1.busyReleased = true → a55.rsp = goodRsp 55#6 p4 → a6.rsp = goodRsp 6#6 p5 →
    a2.rsp = goodRsp 16#6 p2 → a3.rsp = goodRsp 17#6 p3 →
    a3.data = .data4 bytes c3 c2 c1 c0 → (c3, c2, c1, c0) = lineCrcs bytes.toList →
    Completes (.read d bufSize length) s fun t =>
      t.result = .read (BitVec.ofNat 32 (clip d length)) .ok (BitVec.ofNat 32 (d.cursor.toNat + clip d length)) ∧
      framesOf t.trace = framesOf s.trace ++
        [cmdFrame 7#6 0#32, cmdFrame 7#6 (s.session.rca ++ 0#16), cmdFrame 55#6 (s.session.rca ++ 0#16),
          cmdFrame 6#6 2#32, cmdFrame 16#6 512#32, cmdFrame 17#6 (blockBase (cardAddr d 0))] ∧
      t.cache = ⟨blockBase (cardAddr d 0), bytes⟩ ∧ t.card = rest ∧ t.clkSel = .oper ∧ t.busWide = true ∧
      t.session = s.session ∧ t.rfState = .idle ∧ t.st = Flags.clear ∧
      ∀ x, Memory.get t.caller x =
        if x < clip d length then bytes.toList.getD (blockOff (cardAddr d 0) + x) 0 else Memory.get s.caller x

/-- R270, R276, R262, R263, Scenario C: a READ that straddles two blocks, the first one not cached: exactly two refills,
eight frames on the 1-bit bus, the tail of the first block and then the head of the second in the caller's buffer, the
second block in the cache. -/
def Obligations.ReadStraddlingTwoBlocksRefillsTwice : Prop :=
  ∀ (s : State) (d : Desc) (bufSize length p1 p2 p3 p5 p6 p7 : Word) (a0 a1 a2 a3 a4 a5 a6 a7 : Answer)
    (rest : List Answer) (first second : Block),
    s.between = true → descWf d = true → length.toNat ≤ bufSize.toNat → s.session.acquired = true →
    (s.session.sd && s.cfg.hostWide) = false → wideOnlySd s = true → Memory.wf s.caller = true →
    512 < blockOff (cardAddr d 0) + clip d length → blockOff (cardAddr d 0) + clip d length ≤ 1024 →
    inWindow s.cache.base (cardAddr d 0) = false →
    s.card = a0 :: a1 :: a2 :: a3 :: a4 :: a5 :: a6 :: a7 :: rest →
    a1.rsp = goodRsp 7#6 p1 → a1.busyReleased = true → a2.rsp = goodRsp 16#6 p2 → a3.rsp = goodRsp 17#6 p3 →
    a3.data = .data first (crc16 first.toList) →
    a5.rsp = goodRsp 7#6 p5 → a5.busyReleased = true → a6.rsp = goodRsp 16#6 p6 → a7.rsp = goodRsp 17#6 p7 →
    a7.data = .data second (crc16 second.toList) →
    Completes (.read d bufSize length) s fun t =>
      t.result = .read (BitVec.ofNat 32 (clip d length)) .ok (BitVec.ofNat 32 (d.cursor.toNat + clip d length)) ∧
      t.desc = { d with cursor := BitVec.ofNat 32 (d.cursor.toNat + clip d length) } ∧
      framesOf t.trace = framesOf s.trace ++
        [cmdFrame 7#6 0#32, cmdFrame 7#6 (s.session.rca ++ 0#16), cmdFrame 16#6 512#32,
          cmdFrame 17#6 (blockBase (cardAddr d 0)),
          cmdFrame 7#6 0#32, cmdFrame 7#6 (s.session.rca ++ 0#16), cmdFrame 16#6 512#32,
          cmdFrame 17#6 (blockBase (cardAddr d 0) + 512#32)] ∧
      t.cache = ⟨blockBase (cardAddr d 0) + 512#32, second⟩ ∧ t.card = rest ∧ t.clkSel = .oper ∧
      t.session = s.session ∧ t.rfState = .idle ∧ t.st = Flags.clear ∧
      ∀ x, Memory.get t.caller x =
        if blockOff (cardAddr d 0) + x < 512 then first.toList.getD (blockOff (cardAddr d 0) + x) 0
        else if x < clip d length then second.toList.getD (blockOff (cardAddr d 0) + x - 512) 0
        else Memory.get s.caller x

/-- R264, R269, R79: a refill ends with the block in the window, or with the cache empty; the refill sequencer is at
rest either way, and the session is untouched. With R275, R276, R300: it sends the deselect and then the refill's frames
in order up to the first whose answer is not good, and returns the status of that answer; `Ok` only after all. -/
def Obligations.RefillFillsOrEmptiesTheCache : Prop :=
  ∀ (a : Word) (s t : State) (st : Status), refill a s = .ok (st, t) →
    (st = .ok → t.cache.base = blockBase a ∧ inWindow t.cache.base a = true) ∧
    (st ≠ .ok → t.cache.base = Config.cacheInvalid) ∧
    (st = .ok ∨ st = .timeout ∨ st = .crcError ∨ st = .commandError) ∧
    t.rfState = .idle ∧ t.st = Flags.clear ∧ t.session = s.session ∧ t.acqState = s.acqState ∧
    t.acqResult = s.acqResult ∧ t.caller = s.caller ∧ t.cfg = s.cfg ∧ t.clkSel = .oper ∧
    let sends := refillFrames (s.session.sd && s.cfg.hostWide) s.session.rca (blockBase a)
    ∃ (n : Nat) (f : Frame), sends[n]? = some f ∧
      framesOf t.trace = framesOf s.trace ++ cmdFrame 7#6 0#32 :: sends.take (n + 1) ∧
      answerStatus (frameIndex f) (answerAt s (n + 1)) = st ∧
      (∀ k g, k < n → sends[k]? = some g → answerStatus (frameIndex g) (answerAt s (k + 1)) = .ok) ∧
      (st = .ok → n + 1 = sends.length)

/-- R262, R263, R274, R275, R269: whatever the card does, a READ of an acquired card that completes returns a count of at
most the clipped length, all of it exactly when the status is `Ok`; the cursor moves by the count; no byte of the caller's
buffer at or beyond the count changes; a failure leaves the cache empty; session and acquisition registers stay. Each
byte below the count is the byte of its card address: of the cached block, for the first block of the range if it was in
the window, and otherwise of the good data frame with which the card answered the READ_SINGLE_BLOCK of its block in this
READ. A status other than `Ok` is that of the card's answer to the last frame sent (R300). -/
def Obligations.ReadCountsWhatItCopied : Prop :=
  ∀ (s t : State) (d : Desc) (bufSize length : Word),
    exec (.read d bufSize length) s = .next t → s.session.acquired = true → Memory.wf s.caller = true →
    ∃ (count : Nat) (st : Status) (fs : List Frame),
      t.result = .read (BitVec.ofNat 32 count) st (BitVec.ofNat 32 (d.cursor.toNat + count)) ∧
      t.desc = { d with cursor := BitVec.ofNat 32 (d.cursor.toNat + count) } ∧
      count ≤ clip d length ∧ (st = .ok ↔ count = clip d length) ∧
      (st = .ok ∨ st = .timeout ∨ st = .crcError ∨ st = .commandError) ∧
      (∀ x, count ≤ x → Memory.get t.caller x = Memory.get s.caller x) ∧
      framesOf t.trace = framesOf s.trace ++ fs ∧
      (cacheAligned s = true → ∀ x, x < count →
        let a := cardAddr d x
        ∃ block : Block, Memory.get t.caller x = block.toList.getD (blockOff a) 0 ∧
          if inWindow s.cache.base (cardAddr d 0) = true ∧ blockBase a = blockBase (cardAddr d 0) then
            block = s.cache.buf
          else
            ∃ k, fs[k]? = some (cmdFrame 17#6 (blockBase a)) ∧ (answerAt s k).data.delivers block) ∧
      (st ≠ .ok → t.cache.base = Config.cacheInvalid ∧
        ∃ f, fs.getLast? = some f ∧ answerStatus (frameIndex f) (answerAt s (fs.length - 1)) = st) ∧
      t.session = s.session ∧ t.acqState = s.acqState ∧ t.acqResult = s.acqResult ∧ t.cfg = s.cfg ∧
      t.port = s.port ∧ t.rfState = .idle ∧ (s.st = Flags.clear → t.st = Flags.clear)

/-- R274: what any READ leaves unchanged, card or no card, whatever its status: the Card Session, `acq_state`,
`acq_result` and the acquisition's registers, the parameters, the pending requests, and every caller byte at or beyond
the count it returns; flags and `rf_state` are back at rest. If no frame went out, `RB`, the cache, the clock and the bus
width are as they were; if any did, the clock is `OPER`, and, with R49 (a), a card is acquired and every frame is one of a
refill's, with the RCA of the session. -/
def Obligations.ReadKeepsItsFrame : Prop :=
  ∀ (s t : State) (d : Desc) (bufSize length : Word),
    exec (.read d bufSize length) s = .next t → Memory.wf s.caller = true →
    (∃ count st cursor, t.result = .read count st cursor ∧
      ∀ x, count.toNat ≤ x → Memory.get t.caller x = Memory.get s.caller x) ∧
    t.session = s.session ∧ t.acqState = s.acqState ∧ t.acqResult = s.acqResult ∧ t.tries = s.tries ∧
    t.ocr = s.ocr ∧ t.negArg = s.negArg ∧ t.negT0 = s.negT0 ∧ t.sdTimedOut = s.sdTimedOut ∧
    t.mmcTimedOut = s.mmcTimedOut ∧ t.cfg = s.cfg ∧ t.port = s.port ∧ s.nowMs ≤ t.nowMs ∧ t.rfState = .idle ∧
    (s.st = Flags.clear → t.st = Flags.clear) ∧
    (t.busWide = s.busWide ∨ (t.busWide = true ∧ s.session.sd = true ∧ s.cfg.hostWide = true)) ∧
    (s.cfg.realization ≠ .bitPulse → t.clkRun = s.clkRun) ∧
    ∃ fs : List Frame, framesOf t.trace = framesOf s.trace ++ fs ∧
      (fs = [] → t.rb = s.rb ∧ t.cache = s.cache ∧ t.clkSel = s.clkSel ∧ t.busWide = s.busWide) ∧
      (fs ≠ [] → t.clkSel = .oper ∧ s.session.acquired = true) ∧
      ∀ f ∈ fs, f ∈ [cmdFrame 7#6 0#32, cmdFrame 7#6 (s.session.rca ++ 0#16), cmdFrame 55#6 (s.session.rca ++ 0#16),
          cmdFrame 6#6 2#32, cmdFrame 16#6 512#32] ∨
        ∃ a, f = cmdFrame 17#6 (blockBase a)

/-! ## The machine as a whole -/

/-- A step takes the request at the port and runs the decoded instruction; time passes by any amount before it. With no
request the block waits (R331); bytes that decode to nothing are refused (R116). The port and the requests as bytes are
the model's choice (assumption log 3). -/
def Obligations.StepRunsTheDecodedRequest : Prop :=
  ∀ s : State,
    (∀ i rest, decode s.port = .ok (i, rest) → step s = exec i { s.advance 0 with port := rest }) ∧
    (s.port = [] → step s = .next (s.advance 0)) ∧
    (∀ why, s.port ≠ [] → decode s.port = .error why → step s = .refused (.undecodable why))

/-- R51, R330: the state after reset, where the spec gives the value. -/
def Obligations.ResetStateIsTheTables : Prop :=
  State.reset.session = ⟨false, false, 0, 0, 0, 0, 0, 0, 0⟩ ∧ State.reset.cache.base = 0xFFFFFFFF#32 ∧
  State.reset.acqState = .idle ∧ State.reset.acqResult = .none ∧ State.reset.rfState = .idle ∧
  State.reset.st = ⟨false, false, false, false, false, false, false, false⟩ ∧
  State.reset.clkSel = .ident ∧ State.reset.clkRun = false ∧ State.reset.busWide = false ∧
  State.reset.desc.cursor = 0 ∧ State.reset.trace = []

/-- R49, R50: the invariant holds after reset. Its clause on the canonical form of the caller's buffer is the model's own
(assumption log 4). -/
def Obligations.InvariantHoldsAtReset : Prop :=
  State.reset.inv = true

/-- R49, R50: every step keeps the invariant of the block between operations: the cache base is the sentinel or a block
address; without a card the session is zero, the bus narrow and the cache empty; with one the derived fields are the
CSD's; flags and sequencers are at rest; `Done`, `acq_result` and `acquired` agree; the wide bus is an SD card's. The
canonical form of the caller's buffer is the model's own (assumption log 4). -/
def Obligations.StepsKeepTheInvariant : Prop :=
  ∀ s t : State, s.inv = true → step s = .next t → t.inv = true

/-- R76, R109, R193, R341: on the wire every frame of an application command stands directly after an APP_CMD frame, with
nothing interleaved, and every step keeps it so. -/
def Obligations.StepsKeepApplicationCommandsPrefixed : Prop :=
  ∀ s t : State, acmdPaired s.trace = true → step s = .next t → acmdPaired t.trace = true

/-- R20, R310, R299: no instruction but ACQUIRE writes the Card Session, `acq_state` or `acq_result`. -/
def Obligations.OnlyAcquireWritesTheSession : Prop :=
  ∀ (i : Instr) (s t : State), i ≠ .acquire → exec i s = .next t →
    t.session = s.session ∧ t.acqState = s.acqState ∧ t.acqResult = s.acqResult

/-- R42, R41, R74: a step never moves the timer back, never writes the parameters, and only adds to what has gone out. -/
def Obligations.StepsMoveForward : Prop :=
  ∀ s t : State, step s = .next t →
    s.nowMs ≤ t.nowMs ∧ t.cfg = s.cfg ∧ ∃ evs, t.trace = evs ++ s.trace
end

