-- ==== Sys2Proof/Laws/Bytes.lean ====
section
/-! SUPPORT. Bytes put back together: words, frames, registers and the response buffer. -/

namespace Sys2Proof.Laws

open Sys2Proof.Machine

/-- The four bytes of a word are the word. -/
theorem word_of_bytes (w : Word) :
    w.extractLsb' 24 8 ++ w.extractLsb' 16 8 ++ w.extractLsb' 8 8 ++ w.extractLsb' 0 8 = w := by
  ext i hi
  simp only [BitVec.getElem_append, BitVec.getElem_extractLsb']
  interval_cases i <;> rfl

/-- The six bytes of a frame are the frame. -/
theorem frame_of_bytes (f : Frame) :
    f.extractLsb' 40 8 ++ f.extractLsb' 32 8 ++ f.extractLsb' 24 8 ++ f.extractLsb' 16 8 ++ f.extractLsb' 8 8 ++
      f.extractLsb' 0 8 = f := by
  ext i hi
  simp only [BitVec.getElem_append, BitVec.getElem_extractLsb']
  interval_cases i <;> rfl

/-- The sixteen bytes of a register are the register. -/
@[simp] theorem val128_regBytes (v : Reg128) : val128 (regBytes v) = v := by
  unfold val128 regBytes byteOf
  ext i hi
  simp only [BitVec.getElem_append, BitVec.getElem_extractLsb', Vector.getElem_mk, List.getElem_toArray,
    List.getElem_cons_succ, List.getElem_cons_zero]
  interval_cases i <;> rfl

/-- What the decoders read after a 48-bit response, whatever the unspecified bytes are (R111, R132, R133). -/
@[simp] theorem be32_assembleRb (pad : Reg128) (i : BitVec 6) (p : Word) (c : BitVec 7) :
    be32 (assembleRb pad (.rsp48 i p c)).toList 0 = p := word_of_bytes p

@[simp] theorem be32_assembleRb_again (pad : Reg128) (i : BitVec 6) (p : Word) (c : BitVec 7) :
    be32 (assembleRb pad (.rsp48 i p c)).toList 8 = p := word_of_bytes p

@[simp] theorem decodeOcr_assembleRb (pad : Reg128) (i : BitVec 6) (p : Word) (c : BitVec 7) :
    decodeOcr (assembleRb pad (.rsp48 i p c)) = p := word_of_bytes p

@[simp] theorem decodeRca_assembleRb (pad : Reg128) (i : BitVec 6) (p : Word) (c : BitVec 7) :
    decodeRca (assembleRb pad (.rsp48 i p c)) = p.extractLsb' 16 16 := by
  show (p.extractLsb' 24 8 ++ p.extractLsb' 16 8 : BitVec 16) = p.extractLsb' 16 16
  ext i hi
  simp only [BitVec.getElem_append, BitVec.getElem_extractLsb']
  interval_cases i <;> rfl

@[simp] theorem val128_assembleRb (pad v : Reg128) : val128 (assembleRb pad (.rsp136 v)) = v :=
  val128_regBytes v

/-! The fields of a command frame. -/

@[simp] theorem frameIndex_cmdFrame (i : BitVec 6) (a : Word) : frameIndex (cmdFrame i a) = i := by
  unfold frameIndex cmdFrame cmdHead
  generalize crc7 (bitsMsb (0b01#2 ++ i ++ a)) = c
  ext j hj
  simp only [BitVec.getElem_extractLsb', BitVec.getLsbD_append]
  interval_cases j <;> rfl

@[simp] theorem frameArg_cmdFrame (i : BitVec 6) (a : Word) : frameArg (cmdFrame i a) = a := by
  unfold frameArg cmdFrame cmdHead
  generalize crc7 (bitsMsb (0b01#2 ++ i ++ a)) = c
  ext j hj
  simp only [BitVec.getElem_extractLsb', BitVec.getLsbD_append]
  interval_cases j <;> rfl

theorem head_cmdFrame (i : BitVec 6) (a : Word) :
    (cmdFrame i a).extractLsb' 46 2 = 0b01#2 ∧ (cmdFrame i a).extractLsb' 0 1 = 1#1 ∧
    ((cmdFrame i a).extractLsb' 40 8).extractLsb' 6 2 = 0b01#2 := by
  unfold cmdFrame cmdHead
  generalize crc7 (bitsMsb (0b01#2 ++ i ++ a)) = c
  refine ⟨?_, ?_, ?_⟩ <;>
  · ext j hj
    simp only [BitVec.getElem_extractLsb', BitVec.getLsbD_append, BitVec.getLsbD_extractLsb']
    interval_cases j <;> simp

end Sys2Proof.Laws
end

