-- ==== Sys2Proof/Laws/Checksum.lean ====
section
/-! SUPPORT. The checksums bit by bit. -/

namespace Sys2Proof.Laws

open Sys2Proof.Machine

@[simp] theorem crc7From_nil (c : BitVec 7) : crc7From c [] = c := rfl

@[simp] theorem crc7From_cons (c : BitVec 7) (b : Bool) (bs : List Bool) :
    crc7From c (b :: bs) = crc7From (crc7Step c b) bs := by
  simp only [crc7From, crc7Step]
  split <;> rfl

@[simp] theorem crc16From_nil (c : BitVec 16) : crc16From c [] = c := rfl

@[simp] theorem crc16From_cons (c : BitVec 16) (b : Bool) (bs : List Bool) :
    crc16From c (b :: bs) = crc16From (crc16Step c b) bs := by
  simp only [crc16From, crc16Step]
  split <;> rfl

/-- The bits of a string one part after the other. -/
theorem crc7From_append (c : BitVec 7) (as bs : List Bool) :
    crc7From c (as ++ bs) = crc7From (crc7From c as) bs := by
  induction as generalizing c with
  | nil => rfl
  | cons a as ih => simp [ih]

theorem crc16From_append (c : BitVec 16) (as bs : List Bool) :
    crc16From c (as ++ bs) = crc16From (crc16From c as) bs := by
  induction as generalizing c with
  | nil => rfl
  | cons a as ih => simp [ih]

@[simp] theorem length_bitsMsb {w : Nat} (v : BitVec w) : (bitsMsb v).length = w := by
  simp [bitsMsb]

theorem length_bitsOfBytes (bs : List Byte) : (bitsOfBytes bs).length = 8 * bs.length := by
  induction bs with
  | nil => rfl
  | cons b bs ih => simp [bitsOfBytes] at *; omega

theorem length_line4 (bs : List Byte) (j : Nat) : (line4 bs j).length = 2 * bs.length := by
  induction bs with
  | nil => rfl
  | cons b bs ih => simp [line4] at *; omega

end Sys2Proof.Laws
end

