-- ==== Sys2Proof/Laws/State.lean ====
section
/-! SUPPORT. What each named operation does to each field of the state: one lemma per field per operation, true by
`rfl`, so that no later proof unfolds a record update. -/

namespace Sys2Proof.Laws

open Sys2Proof.Machine

section advance
variable (n : Nat) (s : State)

@[simp] theorem advance_session : (s.advance n).session = s.session := rfl
@[simp] theorem advance_rb : (s.advance n).rb = s.rb := rfl
@[simp] theorem advance_cache : (s.advance n).cache = s.cache := rfl
@[simp] theorem advance_cd : (s.advance n).cd = s.cd := rfl
@[simp] theorem advance_acqState : (s.advance n).acqState = s.acqState := rfl
@[simp] theorem advance_acqResult : (s.advance n).acqResult = s.acqResult := rfl
@[simp] theorem advance_tries : (s.advance n).tries = s.tries := rfl
@[simp] theorem advance_ocr : (s.advance n).ocr = s.ocr := rfl
@[simp] theorem advance_negArg : (s.advance n).negArg = s.negArg := rfl
@[simp] theorem advance_negT0 : (s.advance n).negT0 = s.negT0 := rfl
@[simp] theorem advance_sdTimedOut : (s.advance n).sdTimedOut = s.sdTimedOut := rfl
@[simp] theorem advance_mmcTimedOut : (s.advance n).mmcTimedOut = s.mmcTimedOut := rfl
@[simp] theorem advance_rfState : (s.advance n).rfState = s.rfState := rfl
@[simp] theorem advance_st : (s.advance n).st = s.st := rfl
@[simp] theorem advance_clkSel : (s.advance n).clkSel = s.clkSel := rfl
@[simp] theorem advance_clkRun : (s.advance n).clkRun = s.clkRun := rfl
@[simp] theorem advance_busWide : (s.advance n).busWide = s.busWide := rfl
@[simp] theorem advance_cfg : (s.advance n).cfg = s.cfg := rfl
@[simp] theorem advance_nowMs : (s.advance n).nowMs = s.nowMs + n + s.ticks.headD (Config.freeTick s.draws) := rfl
@[simp] theorem advance_desc : (s.advance n).desc = s.desc := rfl
@[simp] theorem advance_caller : (s.advance n).caller = s.caller := rfl
@[simp] theorem advance_result : (s.advance n).result = s.result := rfl
@[simp] theorem advance_port : (s.advance n).port = s.port := rfl
@[simp] theorem advance_card : (s.advance n).card = s.card := rfl
@[simp] theorem advance_ticks : (s.advance n).ticks = s.ticks.tail := rfl
@[simp] theorem advance_draws : (s.advance n).draws = s.draws + 1 := rfl
@[simp] theorem advance_trace : (s.advance n).trace = s.trace := rfl

end advance

section emit
variable (k : EventKind) (s : State)

@[simp] theorem emit_session : (s.emit k).session = s.session := rfl
@[simp] theorem emit_rb : (s.emit k).rb = s.rb := rfl
@[simp] theorem emit_cache : (s.emit k).cache = s.cache := rfl
@[simp] theorem emit_cd : (s.emit k).cd = s.cd := rfl
@[simp] theorem emit_acqState : (s.emit k).acqState = s.acqState := rfl
@[simp] theorem emit_acqResult : (s.emit k).acqResult = s.acqResult := rfl
@[simp] theorem emit_tries : (s.emit k).tries = s.tries := rfl
@[simp] theorem emit_ocr : (s.emit k).ocr = s.ocr := rfl
@[simp] theorem emit_negArg : (s.emit k).negArg = s.negArg := rfl
@[simp] theorem emit_negT0 : (s.emit k).negT0 = s.negT0 := rfl
@[simp] theorem emit_sdTimedOut : (s.emit k).sdTimedOut = s.sdTimedOut := rfl
@[simp] theorem emit_mmcTimedOut : (s.emit k).mmcTimedOut = s.mmcTimedOut := rfl
@[simp] theorem emit_rfState : (s.emit k).rfState = s.rfState := rfl
@[simp] theorem emit_st : (s.emit k).st = s.st := rfl
@[simp] theorem emit_clkSel : (s.emit k).clkSel = s.clkSel := rfl
@[simp] theorem emit_clkRun : (s.emit k).clkRun = s.clkRun := rfl
@[simp] theorem emit_busWide : (s.emit k).busWide = s.busWide := rfl
@[simp] theorem emit_cfg : (s.emit k).cfg = s.cfg := rfl
@[simp] theorem emit_nowMs : (s.emit k).nowMs = s.nowMs := rfl
@[simp] theorem emit_desc : (s.emit k).desc = s.desc := rfl
@[simp] theorem emit_caller : (s.emit k).caller = s.caller := rfl
@[simp] theorem emit_result : (s.emit k).result = s.result := rfl
@[simp] theorem emit_port : (s.emit k).port = s.port := rfl
@[simp] theorem emit_card : (s.emit k).card = s.card := rfl
@[simp] theorem emit_ticks : (s.emit k).ticks = s.ticks := rfl
@[simp] theorem emit_draws : (s.emit k).draws = s.draws := rfl
@[simp] theorem emit_trace : (s.emit k).trace = ⟨k, s.nowMs⟩ :: s.trace := rfl

end emit

section delayMs
variable (n : Nat) (s : State)

@[simp] theorem delayMs_session : (delayMs n s).session = s.session := rfl
@[simp] theorem delayMs_rb : (delayMs n s).rb = s.rb := rfl
@[simp] theorem delayMs_cache : (delayMs n s).cache = s.cache := rfl
@[simp] theorem delayMs_cd : (delayMs n s).cd = s.cd := rfl
@[simp] theorem delayMs_acqState : (delayMs n s).acqState = s.acqState := rfl
@[simp] theorem delayMs_acqResult : (delayMs n s).acqResult = s.acqResult := rfl
@[simp] theorem delayMs_tries : (delayMs n s).tries = s.tries := rfl
@[simp] theorem delayMs_ocr : (delayMs n s).ocr = s.ocr := rfl
@[simp] theorem delayMs_negArg : (delayMs n s).negArg = s.negArg := rfl
@[simp] theorem delayMs_negT0 : (delayMs n s).negT0 = s.negT0 := rfl
@[simp] theorem delayMs_sdTimedOut : (delayMs n s).sdTimedOut = s.sdTimedOut := rfl
@[simp] theorem delayMs_mmcTimedOut : (delayMs n s).mmcTimedOut = s.mmcTimedOut := rfl
@[simp] theorem delayMs_rfState : (delayMs n s).rfState = s.rfState := rfl
@[simp] theorem delayMs_st : (delayMs n s).st = s.st := rfl
@[simp] theorem delayMs_clkSel : (delayMs n s).clkSel = s.clkSel := rfl
@[simp] theorem delayMs_clkRun : (delayMs n s).clkRun = s.clkRun := rfl
@[simp] theorem delayMs_busWide : (delayMs n s).busWide = s.busWide := rfl
@[simp] theorem delayMs_cfg : (delayMs n s).cfg = s.cfg := rfl
@[simp] theorem delayMs_nowMs : (delayMs n s).nowMs = s.nowMs + n + s.ticks.headD (Config.freeTick s.draws) := rfl
@[simp] theorem delayMs_desc : (delayMs n s).desc = s.desc := rfl
@[simp] theorem delayMs_caller : (delayMs n s).caller = s.caller := rfl
@[simp] theorem delayMs_result : (delayMs n s).result = s.result := rfl
@[simp] theorem delayMs_port : (delayMs n s).port = s.port := rfl
@[simp] theorem delayMs_card : (delayMs n s).card = s.card := rfl
@[simp] theorem delayMs_ticks : (delayMs n s).ticks = s.ticks.tail := rfl
@[simp] theorem delayMs_draws : (delayMs n s).draws = s.draws + 1 := rfl
@[simp] theorem delayMs_trace : (delayMs n s).trace = ⟨.delayMs n, s.nowMs⟩ :: s.trace := rfl

end delayMs

section delayUs
variable (n : Nat) (s : State)

@[simp] theorem delayUs_session : (delayUs n s).session = s.session := rfl
@[simp] theorem delayUs_rb : (delayUs n s).rb = s.rb := rfl
@[simp] theorem delayUs_cache : (delayUs n s).cache = s.cache := rfl
@[simp] theorem delayUs_cd : (delayUs n s).cd = s.cd := rfl
@[simp] theorem delayUs_acqState : (delayUs n s).acqState = s.acqState := rfl
@[simp] theorem delayUs_acqResult : (delayUs n s).acqResult = s.acqResult := rfl
@[simp] theorem delayUs_tries : (delayUs n s).tries = s.tries := rfl
@[simp] theorem delayUs_ocr : (delayUs n s).ocr = s.ocr := rfl
@[simp] theorem delayUs_negArg : (delayUs n s).negArg = s.negArg := rfl
@[simp] theorem delayUs_negT0 : (delayUs n s).negT0 = s.negT0 := rfl
@[simp] theorem delayUs_sdTimedOut : (delayUs n s).sdTimedOut = s.sdTimedOut := rfl
@[simp] theorem delayUs_mmcTimedOut : (delayUs n s).mmcTimedOut = s.mmcTimedOut := rfl
@[simp] theorem delayUs_rfState : (delayUs n s).rfState = s.rfState := rfl
@[simp] theorem delayUs_st : (delayUs n s).st = s.st := rfl
@[simp] theorem delayUs_clkSel : (delayUs n s).clkSel = s.clkSel := rfl
@[simp] theorem delayUs_clkRun : (delayUs n s).clkRun = s.clkRun := rfl
@[simp] theorem delayUs_busWide : (delayUs n s).busWide = s.busWide := rfl
@[simp] theorem delayUs_cfg : (delayUs n s).cfg = s.cfg := rfl
@[simp] theorem delayUs_nowMs : (delayUs n s).nowMs = s.nowMs + (n + 999) / 1000 + s.ticks.headD (Config.freeTick s.draws) := rfl
@[simp] theorem delayUs_desc : (delayUs n s).desc = s.desc := rfl
@[simp] theorem delayUs_caller : (delayUs n s).caller = s.caller := rfl
@[simp] theorem delayUs_result : (delayUs n s).result = s.result := rfl
@[simp] theorem delayUs_port : (delayUs n s).port = s.port := rfl
@[simp] theorem delayUs_card : (delayUs n s).card = s.card := rfl
@[simp] theorem delayUs_ticks : (delayUs n s).ticks = s.ticks.tail := rfl
@[simp] theorem delayUs_draws : (delayUs n s).draws = s.draws + 1 := rfl
@[simp] theorem delayUs_trace : (delayUs n s).trace = ⟨.delayUs n, s.nowMs⟩ :: s.trace := rfl

end delayUs

section cacheInvalidate
variable (s : State)

@[simp] theorem cacheInvalidate_session : (cacheInvalidate s).session = s.session := rfl
@[simp] theorem cacheInvalidate_rb : (cacheInvalidate s).rb = s.rb := rfl
@[simp] theorem cacheInvalidate_cache : (cacheInvalidate s).cache = { s.cache with base := Config.cacheInvalid } := rfl
@[simp] theorem cacheInvalidate_cd : (cacheInvalidate s).cd = s.cd := rfl
@[simp] theorem cacheInvalidate_acqState : (cacheInvalidate s).acqState = s.acqState := rfl
@[simp] theorem cacheInvalidate_acqResult : (cacheInvalidate s).acqResult = s.acqResult := rfl
@[simp] theorem cacheInvalidate_tries : (cacheInvalidate s).tries = s.tries := rfl
@[simp] theorem cacheInvalidate_ocr : (cacheInvalidate s).ocr = s.ocr := rfl
@[simp] theorem cacheInvalidate_negArg : (cacheInvalidate s).negArg = s.negArg := rfl
@[simp] theorem cacheInvalidate_negT0 : (cacheInvalidate s).negT0 = s.negT0 := rfl
@[simp] theorem cacheInvalidate_sdTimedOut : (cacheInvalidate s).sdTimedOut = s.sdTimedOut := rfl
@[simp] theorem cacheInvalidate_mmcTimedOut : (cacheInvalidate s).mmcTimedOut = s.mmcTimedOut := rfl
@[simp] theorem cacheInvalidate_rfState : (cacheInvalidate s).rfState = s.rfState := rfl
@[simp] theorem cacheInvalidate_st : (cacheInvalidate s).st = s.st := rfl
@[simp] theorem cacheInvalidate_clkSel : (cacheInvalidate s).clkSel = s.clkSel := rfl
@[simp] theorem cacheInvalidate_clkRun : (cacheInvalidate s).clkRun = s.clkRun := rfl
@[simp] theorem cacheInvalidate_busWide : (cacheInvalidate s).busWide = s.busWide := rfl
@[simp] theorem cacheInvalidate_cfg : (cacheInvalidate s).cfg = s.cfg := rfl
@[simp] theorem cacheInvalidate_nowMs : (cacheInvalidate s).nowMs = s.nowMs := rfl
@[simp] theorem cacheInvalidate_desc : (cacheInvalidate s).desc = s.desc := rfl
@[simp] theorem cacheInvalidate_caller : (cacheInvalidate s).caller = s.caller := rfl
@[simp] theorem cacheInvalidate_result : (cacheInvalidate s).result = s.result := rfl
@[simp] theorem cacheInvalidate_port : (cacheInvalidate s).port = s.port := rfl
@[simp] theorem cacheInvalidate_card : (cacheInvalidate s).card = s.card := rfl
@[simp] theorem cacheInvalidate_ticks : (cacheInvalidate s).ticks = s.ticks := rfl
@[simp] theorem cacheInvalidate_draws : (cacheInvalidate s).draws = s.draws := rfl
@[simp] theorem cacheInvalidate_trace : (cacheInvalidate s).trace = s.trace := rfl

end cacheInvalidate

section cacheFill
variable (b : Word) (s : State)

@[simp] theorem cacheFill_session : (cacheFill b s).session = s.session := rfl
@[simp] theorem cacheFill_rb : (cacheFill b s).rb = s.rb := rfl
@[simp] theorem cacheFill_cache : (cacheFill b s).cache = { s.cache with base := b } := rfl
@[simp] theorem cacheFill_cd : (cacheFill b s).cd = s.cd := rfl
@[simp] theorem cacheFill_acqState : (cacheFill b s).acqState = s.acqState := rfl
@[simp] theorem cacheFill_acqResult : (cacheFill b s).acqResult = s.acqResult := rfl
@[simp] theorem cacheFill_tries : (cacheFill b s).tries = s.tries := rfl
@[simp] theorem cacheFill_ocr : (cacheFill b s).ocr = s.ocr := rfl
@[simp] theorem cacheFill_negArg : (cacheFill b s).negArg = s.negArg := rfl
@[simp] theorem cacheFill_negT0 : (cacheFill b s).negT0 = s.negT0 := rfl
@[simp] theorem cacheFill_sdTimedOut : (cacheFill b s).sdTimedOut = s.sdTimedOut := rfl
@[simp] theorem cacheFill_mmcTimedOut : (cacheFill b s).mmcTimedOut = s.mmcTimedOut := rfl
@[simp] theorem cacheFill_rfState : (cacheFill b s).rfState = s.rfState := rfl
@[simp] theorem cacheFill_st : (cacheFill b s).st = s.st := rfl
@[simp] theorem cacheFill_clkSel : (cacheFill b s).clkSel = s.clkSel := rfl
@[simp] theorem cacheFill_clkRun : (cacheFill b s).clkRun = s.clkRun := rfl
@[simp] theorem cacheFill_busWide : (cacheFill b s).busWide = s.busWide := rfl
@[simp] theorem cacheFill_cfg : (cacheFill b s).cfg = s.cfg := rfl
@[simp] theorem cacheFill_nowMs : (cacheFill b s).nowMs = s.nowMs := rfl
@[simp] theorem cacheFill_desc : (cacheFill b s).desc = s.desc := rfl
@[simp] theorem cacheFill_caller : (cacheFill b s).caller = s.caller := rfl
@[simp] theorem cacheFill_result : (cacheFill b s).result = s.result := rfl
@[simp] theorem cacheFill_port : (cacheFill b s).port = s.port := rfl
@[simp] theorem cacheFill_card : (cacheFill b s).card = s.card := rfl
@[simp] theorem cacheFill_ticks : (cacheFill b s).ticks = s.ticks := rfl
@[simp] theorem cacheFill_draws : (cacheFill b s).draws = s.draws := rfl
@[simp] theorem cacheFill_trace : (cacheFill b s).trace = s.trace := rfl

end cacheFill

section sessionClear
variable (s : State)

@[simp] theorem sessionClear_session : (sessionClear s).session = Session.zero := rfl
@[simp] theorem sessionClear_rb : (sessionClear s).rb = s.rb := rfl
@[simp] theorem sessionClear_cache : (sessionClear s).cache = { s.cache with base := Config.cacheInvalid } := rfl
@[simp] theorem sessionClear_cd : (sessionClear s).cd = s.cd := rfl
@[simp] theorem sessionClear_acqState : (sessionClear s).acqState = s.acqState := rfl
@[simp] theorem sessionClear_acqResult : (sessionClear s).acqResult = s.acqResult := rfl
@[simp] theorem sessionClear_tries : (sessionClear s).tries = s.tries := rfl
@[simp] theorem sessionClear_ocr : (sessionClear s).ocr = s.ocr := rfl
@[simp] theorem sessionClear_negArg : (sessionClear s).negArg = s.negArg := rfl
@[simp] theorem sessionClear_negT0 : (sessionClear s).negT0 = s.negT0 := rfl
@[simp] theorem sessionClear_sdTimedOut : (sessionClear s).sdTimedOut = s.sdTimedOut := rfl
@[simp] theorem sessionClear_mmcTimedOut : (sessionClear s).mmcTimedOut = s.mmcTimedOut := rfl
@[simp] theorem sessionClear_rfState : (sessionClear s).rfState = s.rfState := rfl
@[simp] theorem sessionClear_st : (sessionClear s).st = s.st := rfl
@[simp] theorem sessionClear_clkSel : (sessionClear s).clkSel = s.clkSel := rfl
@[simp] theorem sessionClear_clkRun : (sessionClear s).clkRun = s.clkRun := rfl
@[simp] theorem sessionClear_busWide : (sessionClear s).busWide = false := rfl
@[simp] theorem sessionClear_cfg : (sessionClear s).cfg = s.cfg := rfl
@[simp] theorem sessionClear_nowMs : (sessionClear s).nowMs = s.nowMs := rfl
@[simp] theorem sessionClear_desc : (sessionClear s).desc = s.desc := rfl
@[simp] theorem sessionClear_caller : (sessionClear s).caller = s.caller := rfl
@[simp] theorem sessionClear_result : (sessionClear s).result = s.result := rfl
@[simp] theorem sessionClear_port : (sessionClear s).port = s.port := rfl
@[simp] theorem sessionClear_card : (sessionClear s).card = s.card := rfl
@[simp] theorem sessionClear_ticks : (sessionClear s).ticks = s.ticks := rfl
@[simp] theorem sessionClear_draws : (sessionClear s).draws = s.draws := rfl
@[simp] theorem sessionClear_trace : (sessionClear s).trace = s.trace := rfl

end sessionClear

section raise
variable (k : FailKind) (s : State)

@[simp] theorem raise_session : (raise k s).session = s.session := rfl
@[simp] theorem raise_rb : (raise k s).rb = s.rb := rfl
@[simp] theorem raise_cache : (raise k s).cache = s.cache := rfl
@[simp] theorem raise_cd : (raise k s).cd = s.cd := rfl
@[simp] theorem raise_acqState : (raise k s).acqState = s.acqState := rfl
@[simp] theorem raise_acqResult : (raise k s).acqResult = s.acqResult := rfl
@[simp] theorem raise_tries : (raise k s).tries = s.tries := rfl
@[simp] theorem raise_ocr : (raise k s).ocr = s.ocr := rfl
@[simp] theorem raise_negArg : (raise k s).negArg = s.negArg := rfl
@[simp] theorem raise_negT0 : (raise k s).negT0 = s.negT0 := rfl
@[simp] theorem raise_sdTimedOut : (raise k s).sdTimedOut = s.sdTimedOut := rfl
@[simp] theorem raise_mmcTimedOut : (raise k s).mmcTimedOut = s.mmcTimedOut := rfl
@[simp] theorem raise_rfState : (raise k s).rfState = s.rfState := rfl
@[simp] theorem raise_st : (raise k s).st = s.st.raise k := rfl
@[simp] theorem raise_clkSel : (raise k s).clkSel = s.clkSel := rfl
@[simp] theorem raise_clkRun : (raise k s).clkRun = s.clkRun := rfl
@[simp] theorem raise_busWide : (raise k s).busWide = s.busWide := rfl
@[simp] theorem raise_cfg : (raise k s).cfg = s.cfg := rfl
@[simp] theorem raise_nowMs : (raise k s).nowMs = s.nowMs := rfl
@[simp] theorem raise_desc : (raise k s).desc = s.desc := rfl
@[simp] theorem raise_caller : (raise k s).caller = s.caller := rfl
@[simp] theorem raise_result : (raise k s).result = s.result := rfl
@[simp] theorem raise_port : (raise k s).port = s.port := rfl
@[simp] theorem raise_card : (raise k s).card = s.card := rfl
@[simp] theorem raise_ticks : (raise k s).ticks = s.ticks := rfl
@[simp] theorem raise_draws : (raise k s).draws = s.draws := rfl
@[simp] theorem raise_trace : (raise k s).trace = s.trace := rfl

end raise

section clobberRb
variable (s : State)

@[simp] theorem clobberRb_session : (clobberRb s).session = s.session := rfl
@[simp] theorem clobberRb_rb : (clobberRb s).rb = Config.freeRb s.draws := rfl
@[simp] theorem clobberRb_cache : (clobberRb s).cache = s.cache := rfl
@[simp] theorem clobberRb_cd : (clobberRb s).cd = s.cd := rfl
@[simp] theorem clobberRb_acqState : (clobberRb s).acqState = s.acqState := rfl
@[simp] theorem clobberRb_acqResult : (clobberRb s).acqResult = s.acqResult := rfl
@[simp] theorem clobberRb_tries : (clobberRb s).tries = s.tries := rfl
@[simp] theorem clobberRb_ocr : (clobberRb s).ocr = s.ocr := rfl
@[simp] theorem clobberRb_negArg : (clobberRb s).negArg = s.negArg := rfl
@[simp] theorem clobberRb_negT0 : (clobberRb s).negT0 = s.negT0 := rfl
@[simp] theorem clobberRb_sdTimedOut : (clobberRb s).sdTimedOut = s.sdTimedOut := rfl
@[simp] theorem clobberRb_mmcTimedOut : (clobberRb s).mmcTimedOut = s.mmcTimedOut := rfl
@[simp] theorem clobberRb_rfState : (clobberRb s).rfState = s.rfState := rfl
@[simp] theorem clobberRb_st : (clobberRb s).st = s.st := rfl
@[simp] theorem clobberRb_clkSel : (clobberRb s).clkSel = s.clkSel := rfl
@[simp] theorem clobberRb_clkRun : (clobberRb s).clkRun = s.clkRun := rfl
@[simp] theorem clobberRb_busWide : (clobberRb s).busWide = s.busWide := rfl
@[simp] theorem clobberRb_cfg : (clobberRb s).cfg = s.cfg := rfl
@[simp] theorem clobberRb_nowMs : (clobberRb s).nowMs = s.nowMs := rfl
@[simp] theorem clobberRb_desc : (clobberRb s).desc = s.desc := rfl
@[simp] theorem clobberRb_caller : (clobberRb s).caller = s.caller := rfl
@[simp] theorem clobberRb_result : (clobberRb s).result = s.result := rfl
@[simp] theorem clobberRb_port : (clobberRb s).port = s.port := rfl
@[simp] theorem clobberRb_card : (clobberRb s).card = s.card := rfl
@[simp] theorem clobberRb_ticks : (clobberRb s).ticks = s.ticks := rfl
@[simp] theorem clobberRb_draws : (clobberRb s).draws = s.draws + 1 := rfl
@[simp] theorem clobberRb_trace : (clobberRb s).trace = s.trace := rfl

end clobberRb

section clobberDest
variable (s : State)

@[simp] theorem clobberDest_session : (clobberDest s).session = s.session := rfl
@[simp] theorem clobberDest_rb : (clobberDest s).rb = s.rb := rfl
@[simp] theorem clobberDest_cache : (clobberDest s).cache = { s.cache with buf := Config.freeBlock s.draws } := rfl
@[simp] theorem clobberDest_cd : (clobberDest s).cd = s.cd := rfl
@[simp] theorem clobberDest_acqState : (clobberDest s).acqState = s.acqState := rfl
@[simp] theorem clobberDest_acqResult : (clobberDest s).acqResult = s.acqResult := rfl
@[simp] theorem clobberDest_tries : (clobberDest s).tries = s.tries := rfl
@[simp] theorem clobberDest_ocr : (clobberDest s).ocr = s.ocr := rfl
@[simp] theorem clobberDest_negArg : (clobberDest s).negArg = s.negArg := rfl
@[simp] theorem clobberDest_negT0 : (clobberDest s).negT0 = s.negT0 := rfl
@[simp] theorem clobberDest_sdTimedOut : (clobberDest s).sdTimedOut = s.sdTimedOut := rfl
@[simp] theorem clobberDest_mmcTimedOut : (clobberDest s).mmcTimedOut = s.mmcTimedOut := rfl
@[simp] theorem clobberDest_rfState : (clobberDest s).rfState = s.rfState := rfl
@[simp] theorem clobberDest_st : (clobberDest s).st = s.st := rfl
@[simp] theorem clobberDest_clkSel : (clobberDest s).clkSel = s.clkSel := rfl
@[simp] theorem clobberDest_clkRun : (clobberDest s).clkRun = s.clkRun := rfl
@[simp] theorem clobberDest_busWide : (clobberDest s).busWide = s.busWide := rfl
@[simp] theorem clobberDest_cfg : (clobberDest s).cfg = s.cfg := rfl
@[simp] theorem clobberDest_nowMs : (clobberDest s).nowMs = s.nowMs := rfl
@[simp] theorem clobberDest_desc : (clobberDest s).desc = s.desc := rfl
@[simp] theorem clobberDest_caller : (clobberDest s).caller = s.caller := rfl
@[simp] theorem clobberDest_result : (clobberDest s).result = s.result := rfl
@[simp] theorem clobberDest_port : (clobberDest s).port = s.port := rfl
@[simp] theorem clobberDest_card : (clobberDest s).card = s.card := rfl
@[simp] theorem clobberDest_ticks : (clobberDest s).ticks = s.ticks := rfl
@[simp] theorem clobberDest_draws : (clobberDest s).draws = s.draws + 1 := rfl
@[simp] theorem clobberDest_trace : (clobberDest s).trace = s.trace := rfl

end clobberDest

section clearFlags
variable (s : State)

@[simp] theorem clearFlags_session : (clearFlags s).session = s.session := rfl
@[simp] theorem clearFlags_rb : (clearFlags s).rb = s.rb := rfl
@[simp] theorem clearFlags_cache : (clearFlags s).cache = s.cache := rfl
@[simp] theorem clearFlags_cd : (clearFlags s).cd = s.cd := rfl
@[simp] theorem clearFlags_acqState : (clearFlags s).acqState = s.acqState := rfl
@[simp] theorem clearFlags_acqResult : (clearFlags s).acqResult = s.acqResult := rfl
@[simp] theorem clearFlags_tries : (clearFlags s).tries = s.tries := rfl
@[simp] theorem clearFlags_ocr : (clearFlags s).ocr = s.ocr := rfl
@[simp] theorem clearFlags_negArg : (clearFlags s).negArg = s.negArg := rfl
@[simp] theorem clearFlags_negT0 : (clearFlags s).negT0 = s.negT0 := rfl
@[simp] theorem clearFlags_sdTimedOut : (clearFlags s).sdTimedOut = s.sdTimedOut := rfl
@[simp] theorem clearFlags_mmcTimedOut : (clearFlags s).mmcTimedOut = s.mmcTimedOut := rfl
@[simp] theorem clearFlags_rfState : (clearFlags s).rfState = s.rfState := rfl
@[simp] theorem clearFlags_st : (clearFlags s).st = Flags.clear := rfl
@[simp] theorem clearFlags_clkSel : (clearFlags s).clkSel = s.clkSel := rfl
@[simp] theorem clearFlags_clkRun : (clearFlags s).clkRun = if s.cfg.realization = .bitPulse then false else s.clkRun := rfl
@[simp] theorem clearFlags_busWide : (clearFlags s).busWide = s.busWide := rfl
@[simp] theorem clearFlags_cfg : (clearFlags s).cfg = s.cfg := rfl
@[simp] theorem clearFlags_nowMs : (clearFlags s).nowMs = s.nowMs := rfl
@[simp] theorem clearFlags_desc : (clearFlags s).desc = s.desc := rfl
@[simp] theorem clearFlags_caller : (clearFlags s).caller = s.caller := rfl
@[simp] theorem clearFlags_result : (clearFlags s).result = s.result := rfl
@[simp] theorem clearFlags_port : (clearFlags s).port = s.port := rfl
@[simp] theorem clearFlags_card : (clearFlags s).card = s.card := rfl
@[simp] theorem clearFlags_ticks : (clearFlags s).ticks = s.ticks := rfl
@[simp] theorem clearFlags_draws : (clearFlags s).draws = s.draws := rfl
@[simp] theorem clearFlags_trace : (clearFlags s).trace = s.trace := rfl

end clearFlags

section sendFrame
variable (i : BitVec 6) (a : Word) (s : State)

@[simp] theorem sendFrame_session : (sendFrame i a s).session = s.session := rfl
@[simp] theorem sendFrame_rb : (sendFrame i a s).rb = s.rb := rfl
@[simp] theorem sendFrame_cache : (sendFrame i a s).cache = s.cache := rfl
@[simp] theorem sendFrame_cd : (sendFrame i a s).cd = s.cd := rfl
@[simp] theorem sendFrame_acqState : (sendFrame i a s).acqState = s.acqState := rfl
@[simp] theorem sendFrame_acqResult : (sendFrame i a s).acqResult = s.acqResult := rfl
@[simp] theorem sendFrame_tries : (sendFrame i a s).tries = s.tries := rfl
@[simp] theorem sendFrame_ocr : (sendFrame i a s).ocr = s.ocr := rfl
@[simp] theorem sendFrame_negArg : (sendFrame i a s).negArg = s.negArg := rfl
@[simp] theorem sendFrame_negT0 : (sendFrame i a s).negT0 = s.negT0 := rfl
@[simp] theorem sendFrame_sdTimedOut : (sendFrame i a s).sdTimedOut = s.sdTimedOut := rfl
@[simp] theorem sendFrame_mmcTimedOut : (sendFrame i a s).mmcTimedOut = s.mmcTimedOut := rfl
@[simp] theorem sendFrame_rfState : (sendFrame i a s).rfState = s.rfState := rfl
@[simp] theorem sendFrame_st : (sendFrame i a s).st = { s.st with cmdDone := true } := rfl
@[simp] theorem sendFrame_clkSel : (sendFrame i a s).clkSel = s.clkSel := rfl
@[simp] theorem sendFrame_clkRun : (sendFrame i a s).clkRun = if s.cfg.realization = .bitPulse then true else s.clkRun := rfl
@[simp] theorem sendFrame_busWide : (sendFrame i a s).busWide = s.busWide := rfl
@[simp] theorem sendFrame_cfg : (sendFrame i a s).cfg = s.cfg := rfl
@[simp] theorem sendFrame_nowMs : (sendFrame i a s).nowMs = s.nowMs := rfl
@[simp] theorem sendFrame_desc : (sendFrame i a s).desc = s.desc := rfl
@[simp] theorem sendFrame_caller : (sendFrame i a s).caller = s.caller := rfl
@[simp] theorem sendFrame_result : (sendFrame i a s).result = s.result := rfl
@[simp] theorem sendFrame_port : (sendFrame i a s).port = s.port := rfl
@[simp] theorem sendFrame_card : (sendFrame i a s).card = s.card.tail := rfl
@[simp] theorem sendFrame_ticks : (sendFrame i a s).ticks = s.ticks := rfl
@[simp] theorem sendFrame_draws : (sendFrame i a s).draws = s.draws := rfl
@[simp] theorem sendFrame_trace : (sendFrame i a s).trace = ⟨.frame (cmdFrame i a) s.clkSel, s.nowMs⟩ :: s.trace := rfl

end sendFrame

section storeRsp
variable (r : Rsp) (s : State)

@[simp] theorem storeRsp_session : (storeRsp r s).session = s.session := rfl
@[simp] theorem storeRsp_rb : (storeRsp r s).rb = assembleRb (Config.freePad s.draws) r := rfl
@[simp] theorem storeRsp_cache : (storeRsp r s).cache = s.cache := rfl
@[simp] theorem storeRsp_cd : (storeRsp r s).cd = s.cd := rfl
@[simp] theorem storeRsp_acqState : (storeRsp r s).acqState = s.acqState := rfl
@[simp] theorem storeRsp_acqResult : (storeRsp r s).acqResult = s.acqResult := rfl
@[simp] theorem storeRsp_tries : (storeRsp r s).tries = s.tries := rfl
@[simp] theorem storeRsp_ocr : (storeRsp r s).ocr = s.ocr := rfl
@[simp] theorem storeRsp_negArg : (storeRsp r s).negArg = s.negArg := rfl
@[simp] theorem storeRsp_negT0 : (storeRsp r s).negT0 = s.negT0 := rfl
@[simp] theorem storeRsp_sdTimedOut : (storeRsp r s).sdTimedOut = s.sdTimedOut := rfl
@[simp] theorem storeRsp_mmcTimedOut : (storeRsp r s).mmcTimedOut = s.mmcTimedOut := rfl
@[simp] theorem storeRsp_rfState : (storeRsp r s).rfState = s.rfState := rfl
@[simp] theorem storeRsp_st : (storeRsp r s).st = s.st := rfl
@[simp] theorem storeRsp_clkSel : (storeRsp r s).clkSel = s.clkSel := rfl
@[simp] theorem storeRsp_clkRun : (storeRsp r s).clkRun = s.clkRun := rfl
@[simp] theorem storeRsp_busWide : (storeRsp r s).busWide = s.busWide := rfl
@[simp] theorem storeRsp_cfg : (storeRsp r s).cfg = s.cfg := rfl
@[simp] theorem storeRsp_nowMs : (storeRsp r s).nowMs = s.nowMs := rfl
@[simp] theorem storeRsp_desc : (storeRsp r s).desc = s.desc := rfl
@[simp] theorem storeRsp_caller : (storeRsp r s).caller = s.caller := rfl
@[simp] theorem storeRsp_result : (storeRsp r s).result = s.result := rfl
@[simp] theorem storeRsp_port : (storeRsp r s).port = s.port := rfl
@[simp] theorem storeRsp_card : (storeRsp r s).card = s.card := rfl
@[simp] theorem storeRsp_ticks : (storeRsp r s).ticks = s.ticks := rfl
@[simp] theorem storeRsp_draws : (storeRsp r s).draws = s.draws + 1 := rfl
@[simp] theorem storeRsp_trace : (storeRsp r s).trace = s.trace := rfl

end storeRsp

section storeData
variable (b : Block) (s : State)

@[simp] theorem storeData_session : (storeData b s).session = s.session := rfl
@[simp] theorem storeData_rb : (storeData b s).rb = s.rb := rfl
@[simp] theorem storeData_cache : (storeData b s).cache = { s.cache with buf := b } := rfl
@[simp] theorem storeData_cd : (storeData b s).cd = s.cd := rfl
@[simp] theorem storeData_acqState : (storeData b s).acqState = s.acqState := rfl
@[simp] theorem storeData_acqResult : (storeData b s).acqResult = s.acqResult := rfl
@[simp] theorem storeData_tries : (storeData b s).tries = s.tries := rfl
@[simp] theorem storeData_ocr : (storeData b s).ocr = s.ocr := rfl
@[simp] theorem storeData_negArg : (storeData b s).negArg = s.negArg := rfl
@[simp] theorem storeData_negT0 : (storeData b s).negT0 = s.negT0 := rfl
@[simp] theorem storeData_sdTimedOut : (storeData b s).sdTimedOut = s.sdTimedOut := rfl
@[simp] theorem storeData_mmcTimedOut : (storeData b s).mmcTimedOut = s.mmcTimedOut := rfl
@[simp] theorem storeData_rfState : (storeData b s).rfState = s.rfState := rfl
@[simp] theorem storeData_st : (storeData b s).st = { s.st with dataReady := true, xferDone := true } := rfl
@[simp] theorem storeData_clkSel : (storeData b s).clkSel = s.clkSel := rfl
@[simp] theorem storeData_clkRun : (storeData b s).clkRun = s.clkRun := rfl
@[simp] theorem storeData_busWide : (storeData b s).busWide = s.busWide := rfl
@[simp] theorem storeData_cfg : (storeData b s).cfg = s.cfg := rfl
@[simp] theorem storeData_nowMs : (storeData b s).nowMs = s.nowMs := rfl
@[simp] theorem storeData_desc : (storeData b s).desc = s.desc := rfl
@[simp] theorem storeData_caller : (storeData b s).caller = s.caller := rfl
@[simp] theorem storeData_result : (storeData b s).result = s.result := rfl
@[simp] theorem storeData_port : (storeData b s).port = s.port := rfl
@[simp] theorem storeData_card : (storeData b s).card = s.card := rfl
@[simp] theorem storeData_ticks : (storeData b s).ticks = s.ticks := rfl
@[simp] theorem storeData_draws : (storeData b s).draws = s.draws := rfl
@[simp] theorem storeData_trace : (storeData b s).trace = s.trace := rfl

end storeData

section takeRequest
variable (bs : List Byte) (s : State)

@[simp] theorem takeRequest_session : (takeRequest bs s).session = s.session := rfl
@[simp] theorem takeRequest_rb : (takeRequest bs s).rb = s.rb := rfl
@[simp] theorem takeRequest_cache : (takeRequest bs s).cache = s.cache := rfl
@[simp] theorem takeRequest_cd : (takeRequest bs s).cd = s.cd := rfl
@[simp] theorem takeRequest_acqState : (takeRequest bs s).acqState = s.acqState := rfl
@[simp] theorem takeRequest_acqResult : (takeRequest bs s).acqResult = s.acqResult := rfl
@[simp] theorem takeRequest_tries : (takeRequest bs s).tries = s.tries := rfl
@[simp] theorem takeRequest_ocr : (takeRequest bs s).ocr = s.ocr := rfl
@[simp] theorem takeRequest_negArg : (takeRequest bs s).negArg = s.negArg := rfl
@[simp] theorem takeRequest_negT0 : (takeRequest bs s).negT0 = s.negT0 := rfl
@[simp] theorem takeRequest_sdTimedOut : (takeRequest bs s).sdTimedOut = s.sdTimedOut := rfl
@[simp] theorem takeRequest_mmcTimedOut : (takeRequest bs s).mmcTimedOut = s.mmcTimedOut := rfl
@[simp] theorem takeRequest_rfState : (takeRequest bs s).rfState = s.rfState := rfl
@[simp] theorem takeRequest_st : (takeRequest bs s).st = s.st := rfl
@[simp] theorem takeRequest_clkSel : (takeRequest bs s).clkSel = s.clkSel := rfl
@[simp] theorem takeRequest_clkRun : (takeRequest bs s).clkRun = s.clkRun := rfl
@[simp] theorem takeRequest_busWide : (takeRequest bs s).busWide = s.busWide := rfl
@[simp] theorem takeRequest_cfg : (takeRequest bs s).cfg = s.cfg := rfl
@[simp] theorem takeRequest_nowMs : (takeRequest bs s).nowMs = s.nowMs + 0 + s.ticks.headD (Config.freeTick s.draws) := rfl
@[simp] theorem takeRequest_desc : (takeRequest bs s).desc = s.desc := rfl
@[simp] theorem takeRequest_caller : (takeRequest bs s).caller = s.caller := rfl
@[simp] theorem takeRequest_result : (takeRequest bs s).result = s.result := rfl
@[simp] theorem takeRequest_port : (takeRequest bs s).port = bs := rfl
@[simp] theorem takeRequest_card : (takeRequest bs s).card = s.card := rfl
@[simp] theorem takeRequest_ticks : (takeRequest bs s).ticks = s.ticks.tail := rfl
@[simp] theorem takeRequest_draws : (takeRequest bs s).draws = s.draws + 1 := rfl
@[simp] theorem takeRequest_trace : (takeRequest bs s).trace = s.trace := rfl

end takeRequest

end Sys2Proof.Laws
end

