-- ==== Sys2Proof/Laws/Trace.lean ====
section
/-! SUPPORT. The frames of a trace, event by event. -/

namespace Sys2Proof.Laws

open Sys2Proof.Machine

variable (n t : Nat) (f : Frame) (c : ClkSel) (tr : List Event)

@[simp] theorem framesOf_nil : framesOf [] = [] := rfl

@[simp] theorem framesOf_frame : framesOf (⟨.frame f c, t⟩ :: tr) = framesOf tr ++ [f] := by
  simp [framesOf]

@[simp] theorem framesOf_clock : framesOf (⟨.clock c, t⟩ :: tr) = framesOf tr := by
  simp [framesOf]

@[simp] theorem framesOf_delayUs : framesOf (⟨.delayUs n, t⟩ :: tr) = framesOf tr := by
  simp [framesOf]

@[simp] theorem framesOf_delayMs : framesOf (⟨.delayMs n, t⟩ :: tr) = framesOf tr := by
  simp [framesOf]

end Sys2Proof.Laws
end

