-- ==== Sys2Proof/Laws/Transport.lean ====
section
/-! SUPPORT. What each step of the Host Transport can do, said once: which frames went out, which answers were taken,
and that nothing of `CommandFrame` changed. -/

namespace Sys2Proof.Machine

/-! The frame is reflexive and transitive. -/

theorem CommandFrame.refl (s : State) : CommandFrame s s := by
  constructor <;> rfl

theorem CommandFrame.trans {s t u : State} (h : CommandFrame s t) (k : CommandFrame t u) : CommandFrame s u := by
  obtain ⟨h1, h2, h3, h4, h5, h6, h7, h8, h9, h10, h11, h12, h13, h14, h15⟩ := h
  obtain ⟨k1, k2, k3, k4, k5, k6, k7, k8, k9, k10, k11, k12, k13, k14, k15⟩ := k
  constructor <;> simp_all

end Sys2Proof.Machine

namespace Sys2Proof.Laws

open Sys2Proof.Machine

/-- Part of a command has run: these frames went out, the clock and the cache's window stayed, and the command's frame
holds. -/
structure Sent (s t : State) (frames : List Frame) : Prop where
  frame   : CommandFrame s t
  base    : t.cache.base = s.cache.base
  wire    : framesOf t.trace = framesOf s.trace ++ frames
  card    : t.card = s.card.drop frames.length
  clock   : t.clkSel = s.clkSel
  clkRun  : s.cfg.realization ≠ .bitPulse → t.clkRun = s.clkRun
  time    : s.nowMs ≤ t.nowMs

theorem Sent.refl (s : State) : Sent s s [] :=
  ⟨CommandFrame.refl s, rfl, by simp, by simp, rfl, fun _ => rfl, Nat.le_refl _⟩

theorem Sent.trans {s t u : State} {fs gs : List Frame} (h : Sent s t fs) (k : Sent t u gs) :
    Sent s u (fs ++ gs) where
  frame := h.frame.trans k.frame
  base := k.base.trans h.base
  wire := by rw [k.wire, h.wire, List.append_assoc]
  card := by rw [k.card, h.card, List.drop_drop, List.length_append]
  clock := k.clock.trans h.clock
  clkRun hr := (k.clkRun (by rw [h.frame.cfg]; exact hr)).trans (h.clkRun hr)
  time := h.time.trans k.time

/-! The pieces of an exchange. -/

theorem sent_advance (n : Nat) (s : State) : Sent s (s.advance n) [] := by
  refine ⟨?_, rfl, by simp, by simp, rfl, fun _ => rfl, by simp; omega⟩
  constructor <;> rfl

theorem sent_raise (k : FailKind) (s : State) : Sent s (raise k s) [] := by
  refine ⟨?_, rfl, by simp, by simp, rfl, fun _ => rfl, Nat.le_refl _⟩
  constructor <;> rfl

theorem sent_storeRsp (r : Rsp) (s : State) : Sent s (storeRsp r s) [] := by
  refine ⟨?_, rfl, by simp, by simp, rfl, fun _ => rfl, Nat.le_refl _⟩
  constructor <;> rfl

theorem sent_sendFrame (i : BitVec 6) (a : Word) (s : State) : Sent s (sendFrame i a s) [cmdFrame i a] := by
  refine ⟨?_, rfl, by simp, by simp, rfl, fun h => by simp [h], Nat.le_refl _⟩
  constructor <;> rfl

theorem sent_busyWait (b : Bool) (ans : Answer) (s : State) : Sent s (busyWait b ans s).2 [] := by
  unfold busyWait
  split
  · exact (sent_advance _ s).trans (sent_raise _ _)
  · exact Sent.refl s

theorem sent_takeRsp (i : BitVec 6) (fmt : RspFormat) (b : Bool) (ans : Answer) (s : State) :
    Sent s (takeRsp i fmt b ans s).2 [] := by
  unfold takeRsp
  split
  · exact sent_raise _ s
  · exact (sent_storeRsp _ s).trans (sent_busyWait _ _ _)

theorem cache_busyWait (b : Bool) (ans : Answer) (s : State) : (busyWait b ans s).2.cache = s.cache := by
  unfold busyWait
  split <;> rfl

theorem cache_takeRsp (i : BitVec 6) (fmt : RspFormat) (b : Bool) (ans : Answer) (s : State) :
    (takeRsp i fmt b ans s).2.cache = s.cache := by
  unfold takeRsp
  split
  · rfl
  · rw [cache_busyWait]; rfl

/-- The four ways an exchange goes on (R192), as one equation. -/
theorem exchange_cases {i : BitVec 6} {a : Word} {fmt : RspFormat} {b : Bool} {s : State}
    {k : Option FailKind} {t : State} (h : exchange i a fmt b s = .ok (k, t)) :
    (fmt = .none ∧ k = none ∧ t = (sendFrame i a s).advance 0) ∨
    (fmt ≠ .none ∧ (nextAnswer s).rsp = .noResponse ∧ k = some .cmdTimeout ∧
      t = raise .cmdTimeout ((sendFrame i a s).advance Config.tCmdMs)) ∨
    (fmt ≠ .none ∧ (nextAnswer s).rsp ≠ .noResponse ∧ (nextAnswer s).rsp.fits fmt = true ∧
      (k, t) = takeRsp i fmt b (nextAnswer s) ((sendFrame i a s).advance 0)) := by
  unfold exchange at h
  dsimp only at h
  split at h
  · cases h; exact .inl ⟨‹_›, rfl, rfl⟩
  · split at h
    · cases h; exact .inr (.inl ⟨‹_›, ‹_›, rfl, rfl⟩)
    · split at h
      · exact .inr (.inr ⟨‹_›, ‹_›, ‹_›, (Except.ok.inj h).symm⟩)
      · cases h

/-- An exchange sends exactly its one frame and takes one answer. -/
theorem sent_exchange {i : BitVec 6} {a : Word} {fmt : RspFormat} {b : Bool} {s : State}
    {k : Option FailKind} {t : State} (h : exchange i a fmt b s = .ok (k, t)) :
    Sent s t [cmdFrame i a] ∧ t.cache = s.cache := by
  rcases exchange_cases h with ⟨_, _, rfl⟩ | ⟨_, _, _, rfl⟩ | ⟨_, _, _, ht⟩
  · exact ⟨(sent_sendFrame i a s).trans (sent_advance _ _), rfl⟩
  · exact ⟨(sent_sendFrame i a s).trans ((sent_advance _ _).trans (sent_raise _ _)), rfl⟩
  · obtain rfl : t = _ := (Prod.mk.inj ht).2
    exact ⟨(sent_sendFrame i a s).trans ((sent_advance _ _).trans (sent_takeRsp _ _ _ _ _)),
      (cache_takeRsp i fmt b (nextAnswer s) ((sendFrame i a s).advance 0)).trans rfl⟩

/-- An exchange is refused only for the length of the answer (R112). -/
theorem exchange_error {i : BitVec 6} {a : Word} {fmt : RspFormat} {b : Bool} {s : State} {r : Refusal}
    (h : exchange i a fmt b s = .error r) : r = .answerLength := by
  unfold exchange at h
  dsimp only at h
  repeat (first | (split at h) | (cases h; rfl) | cases h)

/-! Step 1. -/

theorem frame_selectClock (ls : Bool) (s : State) : CommandFrame s (selectClock ls s) := by
  unfold selectClock
  split
  · exact CommandFrame.refl s
  · constructor <;> rfl

@[simp] theorem selectClock_clkSel (ls : Bool) (s : State) :
    (selectClock ls s).clkSel = clockOf ls := by
  unfold selectClock
  split
  · assumption
  · rfl

@[simp] theorem selectClock_card (ls : Bool) (s : State) : (selectClock ls s).card = s.card := by
  unfold selectClock
  split <;> rfl

@[simp] theorem selectClock_cache (ls : Bool) (s : State) : (selectClock ls s).cache = s.cache := by
  unfold selectClock
  split <;> rfl

@[simp] theorem selectClock_clkRun (ls : Bool) (s : State) : (selectClock ls s).clkRun = s.clkRun := by
  unfold selectClock
  split <;> rfl

@[simp] theorem selectClock_frames (ls : Bool) (s : State) :
    framesOf (selectClock ls s).trace = framesOf s.trace := by
  unfold selectClock
  split
  · rfl
  · simp

theorem selectClock_time (ls : Bool) (s : State) : s.nowMs ≤ (selectClock ls s).nowMs := by
  unfold selectClock
  split
  · exact Nat.le_refl _
  · simp; omega

/-! Step 5 and the end. -/

theorem sent_takeData (bytes : Block) (good : Bool) (s : State) : Sent s (takeData bytes good s).2 [] := by
  unfold takeData
  split
  · refine ⟨?_, rfl, by simp, by simp, rfl, fun _ => rfl, Nat.le_refl _⟩
    constructor <;> rfl
  · refine ⟨?_, rfl, by simp, by simp, rfl, fun _ => rfl, Nat.le_refl _⟩
    constructor <;> rfl

theorem sent_dataPhase {ans : DataAns} {s : State} {k : Option FailKind} {t : State}
    (h : dataPhase ans s = .ok (k, t)) : Sent s t [] := by
  unfold dataPhase at h
  split at h
  · split at h
    · cases h; exact (sent_advance _ s).trans (sent_raise _ _)
    · obtain rfl : _ = t := (Prod.mk.inj (Except.ok.inj h)).2
      exact (sent_advance _ s).trans (sent_takeData _ _ _)
    · obtain rfl : _ = t := (Prod.mk.inj (Except.ok.inj h)).2
      exact (sent_advance _ s).trans (sent_takeData _ _ _)
  · cases h

theorem dataPhase_error {ans : DataAns} {s : State} {r : Refusal} (h : dataPhase ans s = .error r) :
    r = .dataFormat := by
  unfold dataPhase at h
  split at h
  · split at h <;> cases h
  · cases h; rfl

theorem sent_clobberRb (s : State) : Sent s (clobberRb s) [] := by
  refine ⟨?_, rfl, by simp, by simp, rfl, fun _ => rfl, Nat.le_refl _⟩
  constructor <;> rfl

theorem sent_clobberDest (s : State) : Sent s (clobberDest s) [] := by
  refine ⟨?_, rfl, by simp, by simp, rfl, fun _ => rfl, Nat.le_refl _⟩
  constructor <;> rfl

/-- The end of a command (R200, R201): its status, and that every flag is 0. -/
theorem finish_spec (d : Descriptor) (k : Option FailKind) (s : State) :
    (finish d k s).1 = statusOf k ∧ (finish d k s).2.st = Flags.clear ∧
    (finish d k s).2.clkRun = (if s.cfg.realization = .bitPulse then false else s.clkRun) ∧
    CommandFrame s (finish d k s).2 ∧ (finish d k s).2.cache.base = s.cache.base ∧ framesOf (finish d k s).2.trace = framesOf s.trace ∧
    (finish d k s).2.card = s.card ∧ (finish d k s).2.clkSel = s.clkSel ∧
    (finish d k s).2.nowMs = s.nowMs := by
  unfold finish
  dsimp only
  refine ⟨rfl, rfl, ?_, ?_, ?_, ?_, ?_, ?_, ?_⟩
  · split <;> split <;> rfl
  · split <;> split <;> constructor <;> rfl
  · split <;> split <;> rfl
  · split <;> split <;> rfl
  · split <;> split <;> rfl
  · split <;> split <;> rfl
  · split <;> split <;> rfl

/-- `RB` and the destination at the end: kept after success with a response (R201). -/
theorem finish_ok (d : Descriptor) (s : State) (h : d.rsp ≠ .none) :
    finish d none s = (.ok, clearFlags s) := by
  simp [finish, h, statusOf]

theorem finish_cache (d : Descriptor) (k : Option FailKind) (s : State) (h : d.data = false) :
    (finish d k s).2.cache = s.cache := by
  unfold finish
  dsimp only
  simp only [h, Bool.and_false, Bool.false_eq_true, if_false]
  split <;> rfl

/-! The whole of `execute`. -/

/-- How a completed `execute` came about, phase by phase (R202). -/
theorem execute_cases {d : Descriptor} {a : Word} {dest : Bool} {s : State} {st : Status} {t : State}
    (h : execute d a dest s = .ok (st, t)) :
    d.write = false ∧ (d.data = true → dest = true) ∧
    ((∃ k u, prefixPhase d.acmd (selectClock d.ls { s with cd := ⟨d, a⟩ }) = .ok (some k, u) ∧
        (st, t) = finish d (some k) u) ∨
     (∃ u, prefixPhase d.acmd (selectClock d.ls { s with cd := ⟨d, a⟩ }) = .ok (none, u) ∧
        ((∃ k v, exchange d.index a d.rsp d.busy u = .ok (some k, v) ∧ (st, t) = finish d (some k) v) ∨
         (∃ v, exchange d.index a d.rsp d.busy u = .ok (none, v) ∧
           ((d.data = false ∧ (st, t) = finish d none v) ∨
            (d.data = true ∧ ∃ k w, dataPhase (nextAnswer u).data v = .ok (k, w) ∧
              (st, t) = finish d k w)))))) := by
  unfold execute at h
  split at h
  · cases h
  split at h
  · cases h
  rename_i hw hd
  refine ⟨by simpa using hw, by intro hdt; simpa [hdt] using hd, ?_⟩
  split at h
  · cases h
  · rename_i k u hp
    cases h
    exact .inl ⟨k, u, hp, rfl⟩
  · rename_i u hp
    refine .inr ⟨u, hp, ?_⟩
    unfold mainPhase at h
    split at h
    · cases h
    · rename_i k v hx
      cases h
      exact .inl ⟨k, v, hx, rfl⟩
    · rename_i v hx
      refine .inr ⟨v, hx, ?_⟩
      split at h
      · rename_i hdd
        split at h
        · cases h
        · rename_i k w hy
          cases h
          exact .inr ⟨hdd, k, w, hy, rfl⟩
      · rename_i hdd
        cases h
        exact .inl ⟨by simpa using hdd, rfl⟩

theorem sent_prefixPhase {b : Bool} {s : State} {k : Option FailKind} {t : State}
    (h : prefixPhase b s = .ok (k, t)) :
    ∃ fs, Sent s t fs ∧ t.cache = s.cache ∧
      fs = if b then [cmdFrame 55#6 (rcaArg s.session.rca)] else [] := by
  unfold prefixPhase at h
  split at h
  · rename_i hb
    obtain ⟨h1, h2⟩ := sent_exchange h
    exact ⟨_, h1, h2, by simp [hb, Cmd.descriptor]⟩
  · rename_i hb
    cases h
    exact ⟨[], Sent.refl s, rfl, by simp [hb]⟩

/-- What a completed `execute` leaves, whatever the card did (R200 to R204): the frame, the flags, the clock, and
that the frames sent are the prefix, if there is one, then the command, if the prefix did not fail. -/
structure Executed (d : Descriptor) (a : Word) (s t : State) : Prop where
  frame  : CommandFrame s t
  flags  : t.st = Flags.clear
  clkRun : t.clkRun = if s.cfg.realization = .bitPulse then false else s.clkRun
  clock  : t.clkSel = clockOf d.ls
  time   : s.nowMs ≤ t.nowMs
  base   : t.cache.base = s.cache.base
  cache  : d.data = false → t.cache = s.cache
  wire   : ∃ fs, framesOf t.trace = framesOf s.trace ++ fs ∧ t.card = s.card.drop fs.length ∧
    (fs = (if d.acmd then [cmdFrame 55#6 (rcaArg s.session.rca)] else []) ++ [cmdFrame d.index a] ∨
      (d.acmd = true ∧ fs = [cmdFrame 55#6 (rcaArg s.session.rca)]))

theorem executed_of_sent {d : Descriptor} {a : Word} {s u : State} {k : Option FailKind} {fs : List Frame}
    (h : Sent (selectClock d.ls { s with cd := ⟨d, a⟩ }) u fs)
    (hc : d.data = false → u.cache = s.cache)
    (hf : fs = (if d.acmd then [cmdFrame 55#6 (rcaArg s.session.rca)] else []) ++ [cmdFrame d.index a] ∨
      (d.acmd = true ∧ fs = [cmdFrame 55#6 (rcaArg s.session.rca)])) :
    Executed d a s (finish d k u).2 := by
  obtain ⟨_, f2, f3, f4, fb, f5, f6, f7, f8⟩ := finish_spec d k u
  have hs : CommandFrame s (selectClock d.ls { s with cd := ⟨d, a⟩ }) :=
    CommandFrame.trans (t := { s with cd := ⟨d, a⟩ }) (by constructor <;> rfl) (frame_selectClock _ _)
  have hcfg : u.cfg = s.cfg := (hs.trans h.frame).cfg
  refine ⟨(hs.trans h.frame).trans f4, f2, ?_, ?_, ?_, ?_, ?_, ?_⟩
  · rw [f3, hcfg]
    split
    · rfl
    · rename_i hr
      rw [h.clkRun (by rw [hs.cfg]; exact hr)]
      simp
  · rw [f7, h.clock]
    simp
  · rw [f8]
    exact (selectClock_time d.ls { s with cd := ⟨d, a⟩ }).trans h.time
  · rw [fb, h.base, selectClock_cache]
  · intro hd
    rw [finish_cache d k u hd, hc hd]
  · refine ⟨fs, ?_, ?_, hf⟩
    · rw [f5, h.wire]
      simp
    · rw [f6, h.card]
      simp

theorem execute_spec {d : Descriptor} {a : Word} {dest : Bool} {s : State} {st : Status} {t : State}
    (h : execute d a dest s = .ok (st, t)) : Executed d a s t := by
  have hrca : (selectClock d.ls { s with cd := ⟨d, a⟩ }).session = s.session :=
    (frame_selectClock d.ls { s with cd := ⟨d, a⟩ }).session
  obtain ⟨-, -, ⟨k, u, hp, ht⟩ | ⟨u, hp, ⟨k, v, hx, ht⟩ | ⟨v, hx, ⟨hd, ht⟩ | ⟨hd, k, w, hy, ht⟩⟩⟩⟩ := execute_cases h
  · obtain ⟨fs, h1, h2, h3⟩ := sent_prefixPhase hp
    obtain rfl : t = _ := (Prod.mk.inj ht).2
    unfold prefixPhase at hp
    split at hp
    · rename_i hb
      refine executed_of_sent h1 (fun _ => by simp [h2]) (.inr ⟨hb, by simpa [hb, hrca] using h3⟩)
    · cases hp
  all_goals
    obtain ⟨fs, h1, h2, h3⟩ := sent_prefixPhase hp
    obtain ⟨g1, g2⟩ := sent_exchange hx
    obtain rfl : t = _ := (Prod.mk.inj ht).2
  · exact executed_of_sent (h1.trans g1) (fun _ => by rw [g2, h2]; simp) (.inl (by rw [h3, hrca]))
  · exact executed_of_sent (h1.trans g1) (fun _ => by rw [g2, h2]; simp) (.inl (by rw [h3, hrca]))
  · refine executed_of_sent ((h1.trans g1).trans (sent_dataPhase hy)) (fun hf => by simp [hd] at hf)
      (.inl (by rw [h3, hrca, List.append_nil]))

/-- `execute` never answers `GenericFailure` or `TransientFifoCondition` (R201). -/
theorem statusOf_range (k : Option FailKind) :
    statusOf k ≠ .genericFailure ∧ statusOf k ≠ .transientFifoCondition := by
  rcases k with _ | k
  · decide
  · cases k <;> decide

end Sys2Proof.Laws
end

