-- ==== Sys2Proof/Laws/Execute.lean ====
section
/-! SUPPORT. `execute` run forward, one equation per kind of answer, and the events it adds to the trace. -/

namespace Sys2Proof.Laws

open Sys2Proof.Machine

variable {d : Descriptor} {i : BitVec 6} {a : Word} {fmt : RspFormat} {b dest : Bool} {s t : State}

/-! The exchange, answer by answer (R192). -/

theorem exchange_none (h : fmt = .none) : exchange i a fmt b s = .ok (none, (sendFrame i a s).advance 0) := by
  simp [exchange, h]

theorem exchange_silent (h : fmt ≠ .none) (hr : (nextAnswer s).rsp = .noResponse) :
    exchange i a fmt b s =
      .ok (some .cmdTimeout, raise .cmdTimeout ((sendFrame i a s).advance Config.tCmdMs)) := by
  simp [exchange, h, hr]

theorem exchange_misfit (h : fmt ≠ .none) (hr : (nextAnswer s).rsp ≠ .noResponse)
    (hf : (nextAnswer s).rsp.fits fmt = false) : exchange i a fmt b s = .error .answerLength := by
  simp [exchange, h, hr, hf]

theorem exchange_answer (h : fmt ≠ .none) (hr : (nextAnswer s).rsp ≠ .noResponse)
    (hf : (nextAnswer s).rsp.fits fmt = true) :
    exchange i a fmt b s = .ok (takeRsp i fmt b (nextAnswer s) ((sendFrame i a s).advance 0)) := by
  simp [exchange, h, hr, hf]

/-! The whole, by the descriptor's flags (R202). -/

/-- A command without prefix and data phase is one exchange. -/
theorem execute_plain (hw : d.write = false) (hd : d.data = false) (ha : d.acmd = false) :
    execute d a dest s =
      match exchange d.index a d.rsp d.busy (selectClock d.ls { s with cd := ⟨d, a⟩ }) with
      | .error r => .error r
      | .ok (k, t) => .ok (finish d k t) := by
  simp only [execute, hw, hd, ha, prefixPhase, mainPhase, Bool.false_eq_true, if_false, Bool.false_and]
  split <;> simp_all

/-- A command with a prefix that fails. -/
theorem execute_prefix_fails (hw : d.write = false) (hd : d.data = false) (ha : d.acmd = true) {k : FailKind}
    (hp : exchange 55 (rcaArg s.session.rca) .r1 false (selectClock d.ls { s with cd := ⟨d, a⟩ }) =
      .ok (some k, t)) : execute d a dest s = .ok (finish d (some k) t) := by
  have hs : (selectClock d.ls { s with cd := ⟨d, a⟩ }).session = s.session := (frame_selectClock _ _).session
  simp only [execute, hw, hd, ha, prefixPhase, Bool.false_eq_true, if_false, Bool.false_and, if_true, hs]
  rw [show Cmd.appCmd.descriptor.index = 55 from rfl, hp]

/-- A command with a prefix that is good. -/
theorem execute_prefix_good (hw : d.write = false) (hd : d.data = false) (ha : d.acmd = true)
    (hp : exchange 55 (rcaArg s.session.rca) .r1 false (selectClock d.ls { s with cd := ⟨d, a⟩ }) = .ok (none, t)) :
    execute d a dest s =
      match exchange d.index a d.rsp d.busy t with
      | .error r => .error r
      | .ok (k, u) => .ok (finish d k u) := by
  have hs : (selectClock d.ls { s with cd := ⟨d, a⟩ }).session = s.session := (frame_selectClock _ _).session
  simp only [execute, hw, hd, ha, prefixPhase, mainPhase, Bool.false_eq_true, if_false, Bool.false_and, if_true, hs]
  rw [show Cmd.appCmd.descriptor.index = 55 from rfl, hp]
  dsimp only
  split <;> simp_all

/-- A command with a prefix whose answer has the wrong length. -/
theorem execute_prefix_misfit (hw : d.write = false) (hd : d.data = false) (ha : d.acmd = true) {r : Refusal}
    (hp : exchange 55 (rcaArg s.session.rca) .r1 false (selectClock d.ls { s with cd := ⟨d, a⟩ }) = .error r) :
    execute d a dest s = .error r := by
  have hs : (selectClock d.ls { s with cd := ⟨d, a⟩ }).session = s.session := (frame_selectClock _ _).session
  simp only [execute, hw, hd, ha, prefixPhase, Bool.false_eq_true, if_false, Bool.false_and, if_true, hs]
  rw [show Cmd.appCmd.descriptor.index = 55 from rfl, hp]

/-- `execute` without a data phase is refused only for the length of an answer (R112). -/
theorem execute_error (hw : d.write = false) (hd : d.data = false) {r : Refusal}
    (h : execute d a dest s = .error r) : r = .answerLength := by
  unfold execute at h
  simp only [hw, hd, Bool.false_eq_true, if_false, Bool.false_and] at h
  split at h
  · rename_i r' hp
    cases h
    unfold prefixPhase at hp
    split at hp
    · exact exchange_error hp
    · cases hp
  · cases h
  · unfold mainPhase at h
    split at h
    · rename_i r' hx
      cases h
      exact exchange_error hx
    · cases h
    · simp [hd] at h

/-! The events a command adds (R191, R204 a): first the change of clock with its delay, then its frames. -/

theorem trace_selectClock (ls : Bool) (s : State) :
    (s.clkSel = clockOf ls ∧ selectClock ls s = s) ∨
    (s.clkSel ≠ clockOf ls ∧
      (selectClock ls s).trace =
        ⟨.delayUs s.cfg.clkSettleUs, s.nowMs⟩ :: ⟨.clock (clockOf ls), s.nowMs⟩ :: s.trace ∧
      s.nowMs + (s.cfg.clkSettleUs + 999) / 1000 ≤ (selectClock ls s).nowMs) := by
  unfold selectClock
  split
  · exact .inl ⟨‹_›, rfl⟩
  · refine .inr ⟨‹_›, rfl, ?_⟩
    simp [delayUs]

theorem trace_takeRsp (i : BitVec 6) (fmt : RspFormat) (b : Bool) (ans : Answer) (s : State) :
    (takeRsp i fmt b ans s).2.trace = s.trace := by
  unfold takeRsp busyWait
  split
  · rfl
  · split <;> rfl

theorem trace_exchange {k : Option FailKind} (h : exchange i a fmt b s = .ok (k, t)) :
    t.trace = ⟨.frame (cmdFrame i a) s.clkSel, s.nowMs⟩ :: s.trace := by
  rcases exchange_cases h with ⟨_, _, rfl⟩ | ⟨_, _, _, rfl⟩ | ⟨_, _, _, ht⟩
  · rfl
  · rfl
  · exact (congrArg (fun p => p.2.trace) ht).trans (trace_takeRsp _ _ _ _ _)

theorem trace_takeData (bytes : Block) (good : Bool) (s : State) : (takeData bytes good s).2.trace = s.trace := by
  unfold takeData
  split <;> rfl

theorem trace_dataPhase {ans : DataAns} {k : Option FailKind} (h : dataPhase ans s = .ok (k, t)) :
    t.trace = s.trace := by
  unfold dataPhase at h
  split at h
  · split at h
    · cases h; rfl
    · exact (congrArg (fun p => p.2.trace) (Except.ok.inj h)).symm.trans (trace_takeData _ _ _)
    · exact (congrArg (fun p => p.2.trace) (Except.ok.inj h)).symm.trans (trace_takeData _ _ _)
  · cases h

theorem trace_finish (d : Descriptor) (k : Option FailKind) (s : State) : (finish d k s).2.trace = s.trace := by
  unfold finish
  dsimp only
  split <;> split <;> rfl

/-- The frame events of a command, newest first, on top of what step 1 left. -/
theorem trace_execute {st : Status} (h : execute d a dest s = .ok (st, t)) :
    ∃ m, (selectClock d.ls { s with cd := ⟨d, a⟩ }).nowMs ≤ m ∧
      ((d.acmd = false ∧ t.trace = ⟨.frame (cmdFrame d.index a) (clockOf d.ls), m⟩ ::
          (selectClock d.ls { s with cd := ⟨d, a⟩ }).trace) ∨
       (d.acmd = true ∧ t.trace = ⟨.frame (cmdFrame 55 (rcaArg s.session.rca)) (clockOf d.ls), m⟩ ::
          (selectClock d.ls { s with cd := ⟨d, a⟩ }).trace) ∨
       (d.acmd = true ∧ ∃ m', m ≤ m' ∧
          t.trace = ⟨.frame (cmdFrame d.index a) (clockOf d.ls), m'⟩ ::
            ⟨.frame (cmdFrame 55 (rcaArg s.session.rca)) (clockOf d.ls), m⟩ ::
            (selectClock d.ls { s with cd := ⟨d, a⟩ }).trace)) := by
  have hs : (selectClock d.ls { s with cd := ⟨d, a⟩ }).session = s.session := (frame_selectClock _ _).session
  have hc := selectClock_clkSel d.ls { s with cd := ⟨d, a⟩ }
  -- the second exchange, once the prefix phase has ended well
  have key : ∀ {u v : State} {k : Option FailKind}, prefixPhase d.acmd (selectClock d.ls { s with cd := ⟨d, a⟩ }) = .ok (none, u) →
      exchange d.index a d.rsp d.busy u = .ok (k, v) → t.trace = v.trace →
      ∃ m, (selectClock d.ls { s with cd := ⟨d, a⟩ }).nowMs ≤ m ∧
        ((d.acmd = false ∧ t.trace = ⟨.frame (cmdFrame d.index a) (clockOf d.ls), m⟩ ::
            (selectClock d.ls { s with cd := ⟨d, a⟩ }).trace) ∨
         (d.acmd = true ∧ t.trace = ⟨.frame (cmdFrame 55 (rcaArg s.session.rca)) (clockOf d.ls), m⟩ ::
            (selectClock d.ls { s with cd := ⟨d, a⟩ }).trace) ∨
         (d.acmd = true ∧ ∃ m', m ≤ m' ∧
            t.trace = ⟨.frame (cmdFrame d.index a) (clockOf d.ls), m'⟩ ::
              ⟨.frame (cmdFrame 55 (rcaArg s.session.rca)) (clockOf d.ls), m⟩ ::
              (selectClock d.ls { s with cd := ⟨d, a⟩ }).trace)) := by
    intro u v k hp hx ht
    have hv := trace_exchange hx
    unfold prefixPhase at hp
    split at hp
    · rename_i hb
      have hu := trace_exchange hp
      have hcu : u.clkSel = clockOf d.ls := by rw [(sent_exchange hp).1.clock, hc]
      refine ⟨_, Nat.le_refl _, .inr (.inr ⟨hb, u.nowMs, (sent_exchange hp).1.time, ?_⟩)⟩
      rw [ht, hv, hu, hcu, hc, hs]
      rfl
    · rename_i hb
      cases hp
      refine ⟨_, Nat.le_refl _, .inl ⟨by simpa using hb, ?_⟩⟩
      rw [ht, hv, hc]
  obtain ⟨-, -, ⟨k, u, hp, ht⟩ | ⟨u, hp, ⟨k, v, hx, ht⟩ | ⟨v, hx, ⟨hd, ht⟩ | ⟨hd, k, w, hy, ht⟩⟩⟩⟩ := execute_cases h
  · have htr : t.trace = u.trace := (congrArg (fun p => p.2.trace) ht).trans (trace_finish _ _ _)
    unfold prefixPhase at hp
    split at hp
    · rename_i hb
      refine ⟨_, Nat.le_refl _, .inr (.inl ⟨hb, ?_⟩)⟩
      rw [htr, trace_exchange hp, hc, hs]
      rfl
    · cases hp
  · exact key hp hx ((congrArg (fun p => p.2.trace) ht).trans (trace_finish _ _ _))
  · exact key hp hx ((congrArg (fun p => p.2.trace) ht).trans (trace_finish _ _ _))
  · exact key hp hx ((congrArg (fun p => p.2.trace) ht).trans ((trace_finish _ _ _).trans (trace_dataPhase hy)))

end Sys2Proof.Laws
end

