-- ==== Sys2Proof/Laws/Memory.lean ====
section
/-! SUPPORT. The laws of a byte-addressed space: read after write, and that every write keeps the canonical form. -/

namespace Sys2Proof.Laws

open Sys2Proof.Machine

/-- The canonical form as a proposition about the head and the tail. -/
theorem memory_wf_cons (x : Nat) (y : Byte) (m : Memory) :
    Memory.wf ((x, y) :: m) = true ↔ (∀ c ∈ m, x < c.1) ∧ y ≠ 0 ∧ Memory.wf m = true := by
  simp only [Memory.wf, List.pairwise_cons, List.all_cons, Bool.and_eq_true, decide_eq_true_eq, bne_iff_ne]
  tauto

@[simp] theorem memory_wf_nil : Memory.wf [] = true := rfl

/-- Every address of a space after a write is one of before or the one written. -/
theorem mem_set {m : Memory} {a : Nat} {b : Byte} {c : Host.Cell} (h : c ∈ Memory.set m a b) :
    c ∈ m ∨ c = (a, b) := by
  induction m with
  | nil =>
    simp only [Memory.set] at h
    split at h <;> simp_all
  | cons hd m ih =>
    obtain ⟨x, y⟩ := hd
    simp only [Memory.set] at h
    split at h
    · split at h <;> simp_all
      tauto
    · split at h
      · split at h <;> simp_all
        tauto
      · rcases List.mem_cons.mp h with h | h
        · simp [h]
        · rcases ih h with h | h <;> simp [h]

/-- A write keeps the canonical form. -/
theorem memory_wf_set {m : Memory} (a : Nat) (b : Byte) (h : Memory.wf m = true) :
    Memory.wf (Memory.set m a b) = true := by
  induction m with
  | nil =>
    simp only [Memory.set]
    split
    · rfl
    · exact (memory_wf_cons a b []).mpr ⟨by simp, ‹_›, rfl⟩
  | cons hd m ih =>
    obtain ⟨x, y⟩ := hd
    obtain ⟨h1, h2, h3⟩ := (memory_wf_cons x y m).mp h
    simp only [Memory.set]
    split
    · split
      · exact h
      · refine (memory_wf_cons a b _).mpr ⟨?_, ‹_›, h⟩
        intro c hc
        rcases List.mem_cons.mp hc with rfl | hc
        · assumption
        · have := h1 c hc; omega
    · split
      · split
        · exact h3
        · subst_vars
          exact (memory_wf_cons _ b m).mpr ⟨h1, ‹_›, h3⟩
      · refine (memory_wf_cons x y _).mpr ⟨?_, h2, ih h3⟩
        intro c hc
        rcases mem_set hc with hc | rfl
        · exact h1 c hc
        · simp; omega

/-- Writing bytes keeps the canonical form. -/
theorem memory_wf_setAll {m : Memory} (a : Nat) (bs : List Byte) (h : Memory.wf m = true) :
    Memory.wf (Memory.setAll m a bs) = true := by
  induction bs generalizing m a with
  | nil => exact h
  | cons b bs ih => exact ih (a + 1) (memory_wf_set a b h)

/-- An address below every listed one reads as 0. -/
theorem memory_get_below {m : Memory} {a : Nat} (h : ∀ c ∈ m, a < c.1) : Memory.get m a = 0 := by
  induction m with
  | nil => rfl
  | cons hd m ih =>
    obtain ⟨x, y⟩ := hd
    have hx := h (x, y) (by simp)
    simp only [Memory.get]
    rw [if_neg (by simp at hx; omega)]
    exact ih fun c hc => h c (by simp [hc])

/-- Reading after a write: the byte written at its address, and the byte before it at every other. -/
theorem memory_get_set {m : Memory} (a : Nat) (b : Byte) (x : Nat) (h : Memory.wf m = true) :
    Memory.get (Memory.set m a b) x = if x = a then b else Memory.get m x := by
  induction m with
  | nil =>
    simp only [Memory.set]
    split
    · simp_all [Memory.get]
    · simp [Memory.get]
  | cons hd m ih =>
    obtain ⟨p, q⟩ := hd
    obtain ⟨h1, h2, h3⟩ := (memory_wf_cons p q m).mp h
    simp only [Memory.set]
    split
    · rename_i hlt
      have hb : Memory.get ((p, q) :: m) a = 0 :=
        memory_get_below fun c hc => by
          rcases List.mem_cons.mp hc with rfl | hc
          · exact hlt
          · exact lt_trans hlt (h1 c hc)
      split
      · split
        · simp_all
        · rfl
      · simp [Memory.get]
    · split
      · rename_i heq
        subst heq
        split
        · split
          · subst_vars; exact memory_get_below h1
          · rename_i hx; simp [Memory.get, hx]
        · simp only [Memory.get]
          split <;> simp_all
      · rename_i hlt hne
        simp only [Memory.get]
        rw [ih h3]
        by_cases hx : x = p
        · subst hx
          rw [if_pos rfl, if_neg (Ne.symm hne), if_pos rfl]
        · rw [if_neg hx, if_neg hx]

/-- Reading after writing bytes: the `i`-th byte at `a + i`, everything else as before. -/
theorem memory_get_setAll {m : Memory} (a : Nat) (bs : List Byte) (x : Nat) (h : Memory.wf m = true) :
    Memory.get (Memory.setAll m a bs) x =
      if a ≤ x ∧ x < a + bs.length then bs.getD (x - a) 0 else Memory.get m x := by
  induction bs generalizing m a with
  | nil => simp [Memory.setAll]
  | cons b bs ih =>
    simp only [Memory.setAll]
    rw [ih (a + 1) (memory_wf_set a b h), memory_get_set a b x h]
    by_cases hx : x = a
    · subst hx
      simp
    · by_cases hr : a + 1 ≤ x ∧ x < a + 1 + bs.length
      · have h2 : a ≤ x ∧ x < a + (b :: bs).length := by simp; omega
        rw [if_pos hr, if_pos h2]
        obtain ⟨k, hk⟩ : ∃ k, x - a = k + 1 := ⟨x - a - 1, by omega⟩
        rw [hk, show x - (a + 1) = k by omega]
        simp
      · have h2 : ¬(a ≤ x ∧ x < a + (b :: bs).length) := by simp; omega
        rw [if_neg hr, if_neg h2, if_neg hx]

end Sys2Proof.Laws
end

