-- ==== Sys2Proof/Laws/PerInstr.lean ====
section
/-! SUPPORT. What is said of each instruction as syntax: `Encoding`, the length of its bytes. -/

namespace Sys2Proof.Laws

open Sys2Proof.Machine

/-- The bytes of an instruction: six for a command frame; a request byte and its operand words otherwise. -/
def instrSize : Instr → Nat
  | .goIdleState => 6
  | .sendOpCond _ => 6
  | .allSendCid => 6
  | .setRelativeAddr => 6
  | .sendRelativeAddr => 6
  | .setBusWidth => 6
  | .selectCard _ => 6
  | .deselectCard => 6
  | .sendIfCond => 6
  | .sendCsd _ => 6
  | .stopTransmission => 6
  | .setBlocklen => 6
  | .readSingleBlock _ => 6
  | .sdSendOpCond _ => 6
  | .appCmd _ => 6
  | .acquire => 1
  | .openDesc _ => 13
  | .read _ _ _ => 21
  | .seek _ _ => 17

namespace Encoding

/-- An instruction's encoding has the length of its form. -/
def Statement (i : Instr) : Prop := (encode i).length = instrSize i

theorem goIdleState : Statement .goIdleState := rfl
theorem sendOpCond (arg : Word) : Statement (.sendOpCond arg) := rfl
theorem allSendCid : Statement .allSendCid := rfl
theorem setRelativeAddr : Statement .setRelativeAddr := rfl
theorem sendRelativeAddr : Statement .sendRelativeAddr := rfl
theorem setBusWidth : Statement .setBusWidth := rfl
theorem selectCard (arg : Word) : Statement (.selectCard arg) := rfl
theorem deselectCard : Statement .deselectCard := rfl
theorem sendIfCond : Statement .sendIfCond := rfl
theorem sendCsd (arg : Word) : Statement (.sendCsd arg) := rfl
theorem stopTransmission : Statement .stopTransmission := rfl
theorem setBlocklen : Statement .setBlocklen := rfl
theorem readSingleBlock (addr : Word) : Statement (.readSingleBlock addr) := rfl
theorem sdSendOpCond (arg : Word) : Statement (.sdSendOpCond arg) := rfl
theorem appCmd (arg : Word) : Statement (.appCmd arg) := rfl
theorem acquire : Statement .acquire := rfl
theorem openDesc (d : Desc) : Statement (.openDesc d) := rfl
theorem read (d : Desc) (bufSize length : Word) : Statement (.read d bufSize length) := rfl
theorem seek (d : Desc) (pos : Word) : Statement (.seek d pos) := rfl

end Encoding
end Sys2Proof.Laws
end

