-- ==== Sys2Proof/Laws/Sequencers.lean ====
section
/-! SUPPORT. The sequencers taken apart once: how a completed turn of each came about, and the induction principle of
each loop, so that no proof unfolds one. -/

namespace Sys2Proof.Laws

open Sys2Proof.Machine

variable {s t : State} {st : Status} {ok : Bool} {b : Branch}

/-- A card command of the table that completed is a completed `execute` of its descriptor. -/
theorem executed_of_executeCmd {c : Cmd} {a : Word} (h : executeCmd c a s = .ok (st, t)) :
    Executed c.descriptor a s t := execute_spec h

/-- `op_cond(b, arg)` is the branch's command (R226). -/
theorem executed_of_opCond {a : Word} (h : opCond b a s = .ok (st, t)) :
    Executed (match b with | .sd => Cmd.sdSendOpCond.descriptor | .mmc => Cmd.sendOpCond.descriptor) a s t := by
  cases b
  · exact executed_of_executeCmd (c := .sdSendOpCond) h
  · exact executed_of_executeCmd (c := .sendOpCond) h

/-- What an operation inside the block answers reaches the outside with its status (R190). -/
theorem deliver_next {f : Status → Result} {r : Res Status} (h : deliver f r = .next t) :
    ∃ st u, r = .ok (st, u) ∧ t = { u with result := f st } := by
  unfold deliver at h
  split at h
  · cases h
  · cases h
    exact ⟨_, _, rfl, rfl⟩

/-- How a completed READ_SINGLE_BLOCK of its own came about: `execute` from an empty cache, then the window. -/
theorem readIntoCache_cases {a : Word} (h : readIntoCache a s = .ok (st, t)) :
    ∃ u, executeCmd .readSingleBlock a (cacheInvalidate s) = .ok (st, u) ∧
      u.cache.base = Config.cacheInvalid ∧
      ((st = .ok ∧ s.session.acquired = true ∧ blockBase a = a ∧ t = cacheFill a u) ∨
       (¬(st = .ok ∧ s.session.acquired = true ∧ blockBase a = a) ∧ t = u)) := by
  unfold readIntoCache at h
  split at h
  · cases h
  · rename_i st' u hx
    cases h
    have hs : u.session = s.session := (executed_of_executeCmd hx).frame.session
    refine ⟨u, hx, (executed_of_executeCmd hx).base, ?_⟩
    rw [hs]
    split
    · rename_i hc
      exact .inl ⟨hc.1, hc.2.1, hc.2.2, rfl⟩
    · exact .inr ⟨‹_›, rfl⟩

/-! The acquisition. -/

theorem required_cases {c : Cmd} {a : Word} {k : State → State} (h : required c a k s = .ok t) :
    ∃ st u, executeCmd c a s = .ok (st, u) ∧
      ((st = .ok ∧ t = k u) ∨ (st ≠ .ok ∧ t = { u with acqState := .failed })) := by
  unfold required at h
  split at h
  · cases h
  · rename_i st u hx
    cases h
    refine ⟨st, u, hx, ?_⟩
    split
    · exact .inl ⟨‹_›, rfl⟩
    · exact .inr ⟨‹_›, rfl⟩

theorem afterLoop_cases {next : AcqState} {r : Res Bool} (h : afterLoop next r = .ok t) :
    ∃ ok u, r = .ok (ok, u) ∧ t = { u with acqState := if ok then next else .failed } := by
  unfold afterLoop at h
  split at h
  · cases h
  · cases h
    exact ⟨_, _, rfl, rfl⟩

theorem pollTry_cases {e : TryEnd} (h : pollTry b s = .ok (e, t)) :
    ∃ st u, opCond b 0 (delayMs Config.pollSpacingMs s) = .ok (st, u) ∧
      ((st = .ok ∧ t = { u with tries := u.tries + 1, ocr := decodeOcr u.rb } ∧
          e = if ocrReady t.ocr then .success else .again) ∨
       (st ≠ .ok ∧ t = { u with tries := u.tries + 1 } ∧ e = .again)) := by
  unfold pollTry at h
  split at h
  · cases h
  · rename_i st u hx
    dsimp only at h
    split at h
    · cases h
      exact ⟨st, u, hx, .inl ⟨‹_›, rfl, rfl⟩⟩
    · cases h
      exact ⟨st, u, hx, .inr ⟨‹_›, rfl, rfl⟩⟩

/-- A property that every try of the poll loop keeps holds at its end. -/
theorem pollTurns_keeps {P : State → Prop} (step : ∀ s e t, P s → pollTry b s = .ok (e, t) → P t) :
    ∀ (n : Nat) {s t : State} {ok : Bool}, P s → pollTurns b n s = .ok (ok, t) → P t
  | 0, _, _, _, hp, h => by cases h; exact hp
  | n + 1, s, t, ok, hp, h => by
    unfold pollTurns at h
    split at h
    · cases h
    · rename_i u hx
      exact pollTurns_keeps step n (step _ _ _ hp hx) h
    · rename_i u hx
      cases h
      exact step _ _ _ hp hx
    · rename_i u hx
      cases h
      exact step _ _ _ hp hx

/-- A property that every try of the negotiation and every delay keep holds at its end. -/
theorem negTurns_keeps {P : State → Prop} (step : ∀ s e t, P s → negTry b s = .ok (e, t) → P t)
    (delay : ∀ s, P s → P (delayMs Config.negDelayMs s)) :
    ∀ (n : Nat) {s t : State} {ok : Bool}, P s → negTurns b n s = .ok (ok, t) → P t
  | 0, _, _, _, hp, h => by cases h; exact hp
  | n + 1, s, t, ok, hp, h => by
    unfold negTurns at h
    split at h
    · cases h
    · rename_i u hx
      cases h
      exact step _ _ _ hp hx
    · rename_i u hx
      cases h
      exact step _ _ _ hp hx
    · rename_i u hx
      dsimp only at h
      split at h
      · cases h
        exact delay _ (step _ _ _ hp hx)
      · exact negTurns_keeps step delay n (delay _ (step _ _ _ hp hx)) h

/-- A property that every rule of the acquisition keeps holds at its end (R220). -/
theorem acqRun_keeps {P : State → Prop} (step : ∀ s t, P s → acqStep s = .ok t → P t) :
    ∀ (n : Nat) {s t : State}, P s → acqRun n s = .ok t → P t
  | 0, _, _, hp, h => by cases h; exact hp
  | n + 1, s, t, hp, h => by
    unfold acqRun at h
    split at h
    · cases h; exact hp
    · split at h
      · cases h
      · rename_i u hx
        exact acqRun_keeps step n (step _ _ hp hx) h

/-! The block I/O engine. -/

theorem refillThen_cases {r : Res Status} {k : State → Res Status} (h : refillThen r k = .ok (st, t)) :
    ∃ st' u, r = .ok (st', u) ∧
      ((st' = .ok ∧ k u = .ok (st, t)) ∨ (st' ≠ .ok ∧ st = st' ∧ t = { u with rfState := .idle })) := by
  unfold refillThen at h
  split at h
  · cases h
  · rename_i st' u
    refine ⟨st', u, rfl, ?_⟩
    split at h
    · exact .inl ⟨‹_›, h⟩
    · cases h
      exact .inr ⟨‹_›, rfl, rfl⟩

/-- A property of the bytes copied and the state that every turn of a READ keeps holds at its end (R262). -/
theorem readTurns_keeps {d : Desc} {n : Nat} {P : Nat → State → Prop}
    (copy : ∀ done s t, P done s → done < n → ensureWindow (cardAddr d done) s = .ok (.ok, t) →
      P (done + copyLen (cardAddr d done) (n - done))
        (copyOut (cardAddr d done) done (copyLen (cardAddr d done) (n - done)) t))
    (stop : ∀ done s t st, P done s → done < n → ensureWindow (cardAddr d done) s = .ok (st, t) → st ≠ .ok →
      P done t) :
    ∀ (turns done : Nat) {s t : State} {count : Nat} {st : Status}, P done s →
      readTurns d n turns done s = .ok ((count, st), t) → P count t
  | 0, _, _, _, _, _, hp, h => by cases h; exact hp
  | turns + 1, done, s, t, count, st, hp, h => by
    unfold readTurns at h
    split at h
    · rename_i hlt
      dsimp only at h
      split at h
      · cases h
      · rename_i st' u hx
        split at h
        · rename_i hst
          subst hst
          exact readTurns_keeps copy stop turns _ (copy _ _ _ hp hlt hx) h
        · cases h
          exact stop _ _ _ _ hp hlt hx ‹_›
    · cases h
      exact hp

end Sys2Proof.Laws
end

