-- ==== Sys2Proof/Tests/Slice0.lean ====
section
/-! SUPPORT. Tests. Expected values come from spec/95_test_vectors.md (section named at each test), from the encodings
of spec/opcode_table.json, or from the rule named. The witnesses at the end show, for each statement with hypotheses,
a state and operands that meet them. -/

namespace Sys2Proof.Tests

open Sys2Proof.Machine

set_option Elab.async false

/-! ## Small states -/

/-- The parameters of section 3 of the vectors, with no settle time. -/
def tCfg : Config := ⟨.registerIp, 100, 1000, 0, 1, 0x00FF8000, false, true, 400000, 25000000, true⟩

/-- The reset state with a scripted card and a timer that stands still beyond the lower bounds. -/
def tState (card : List Answer) : State :=
  { State.reset with cfg := tCfg, card := card, ticks := List.replicate 120 0 }

/-- A card that gives no response. -/
def tNone : Answer := ⟨.noResponse, false, .noData⟩
/-- A good 48-bit response, busy released. -/
def tRsp (index : BitVec 6) (payload : Word) : Answer := ⟨goodRsp index payload, true, .noData⟩
/-- A 48-bit response written as its frame. -/
def tFrame (f : Frame) : Answer := ⟨.ofFrame f, true, .noData⟩
/-- A 136-bit response. -/
def tReg (content : Reg128) : Answer := ⟨.rsp136 content, false, .noData⟩

def sdCid : Reg128 := 0x0353445344303147801234567800A525
def mmcCid : Reg128 := 0x1101004D4D4330314710ABCDEF015C7B
def refCsd : Reg128 := 0x00000000000903FFC003800000000013
def csd2 : Reg128 := 0x00000000000A01DA8002800000000081

/-- The blocks of section 2.8. -/
def blk0 : Block := ⟨(List.range 512).map fun i => BitVec.ofNat 8 i, by rw [List.length_map, List.length_range]⟩
def blk1 : Block :=
  ⟨(List.range 512).map fun i => BitVec.ofNat 8 (7 * i + 3), by rw [List.length_map, List.length_range]⟩

/-- An acquired SD card with RCA 0x1234, the end of program P1, with a scripted card. -/
def tSd (card : List Answer) : State :=
  { tState card with
    session := ⟨true, true, 0x1234, sdCid, refCsd, 512, 2097152, 0x40000000, 0⟩
    acqState := .done, acqResult := .acquired }

/-- The same with block 0 in the cache. -/
def tCached : State := { tSd [] with cache := ⟨0, blk0⟩ }

/-- The outcome is a next state with a property. -/
def after (o : Host.Outcome State Fault Refusal) (p : State → Bool) : Bool :=
  match o with
  | .next t => p t
  | .fault _ => false
  | .refused _ => false

/-- The outcome is this refusal. -/
def refusedAs (o : Host.Outcome State Fault Refusal) (r : Refusal) : Bool :=
  match o with
  | .next _ => false
  | .fault _ => false
  | .refused r' => decide (r' = r)

/-- The result and the frames of a step. -/
def ends (o : Host.Outcome State Fault Refusal) (r : Result) (frames : List Frame) : Bool :=
  after o fun t => decide (t.result = r) && decide (framesOf t.trace = frames) && decide (t.st = Flags.clear)

/-! ## Decoding: words written out from the table's encodings, the CRC fields from section 2.2 -/

theorem test_decode_identification :
    decodeTableWord 48 0x400000000095 = some .goIdleState ∧
    decodeTableWord 48 0x4100000000F9 = some (.sendOpCond 0) ∧
    decodeTableWord 48 0x42000000004D = some .allSendCid ∧
    decodeTableWord 48 0x43000100007F = some .setRelativeAddr ∧
    decodeTableWord 48 0x430000000021 = some .sendRelativeAddr ∧
    decodeTableWord 48 0x48000001AA87 = some .sendIfCond ∧
    decodeTableWord 48 0x491234000075 = some (.sendCsd 0x12340000) := by decide

theorem test_decode_selection_and_data :
    decodeTableWord 48 0x471234000059 = some (.selectCard 0x12340000) ∧
    decodeTableWord 48 0x470000000083 = some .deselectCard ∧
    decodeTableWord 48 0x4C0000000061 = some .stopTransmission ∧
    decodeTableWord 48 0x500000020015 = some .setBlocklen ∧
    decodeTableWord 48 0x51FFFFFE009B = some (.readSingleBlock 0xFFFFFE00) := by decide

theorem test_decode_application :
    decodeTableWord 48 0x4600000002CB = some .setBusWidth ∧
    decodeTableWord 48 0x6900FF800085 = some (.sdSendOpCond 0x00FF8000) ∧
    decodeTableWord 48 0x7712340000BF = some (.appCmd 0x12340000) := by decide

/-- SELECT_CARD's frame bit by bit from the table's row: `01000111`, 32 argument bits, 7 CRC bits, `1`. -/
theorem test_decode_bits :
    decodeTableWord 48 0b010001110000000000000001000000000000000011011101 = some (.selectCard 0x00010000) ∧
    decodeTableWord 48 0b010100010000000000000000000001000000000000001101 = some (.readSingleBlock 0x400) := by
  decide

/-- R120: the operation codes; the operands most significant byte first (assumption log 3). -/
theorem test_decode_operations :
    decodeTableWord 8 0 = some .acquire ∧ decodeTableWord 8 1 = some (.openDesc ⟨0, 0, 0⟩) ∧
    decodeTableWord 8 2 = some (.read ⟨0, 0, 0⟩ 0 0) ∧ decodeTableWord 8 3 = some (.seek ⟨0, 0, 0⟩ 0) ∧
    decode [3, 0, 0, 4, 0, 0, 0, 2, 0x58, 0, 0, 0, 1, 0, 0, 2, 0x4E, 9] =
      .ok (.seek ⟨0x400, 600, 1⟩ 590, [9]) := by decide

/-- Indices the block never sends, a wrong direction bit, a wrong end bit, wrong fixed arguments (R91, R116). -/
theorem test_decode_refuses :
    decodeTableWord 48 0x4D0000000001 = none ∧ decodeTableWord 48 0xC00000000001 = none ∧
    decodeTableWord 48 0x400000000094 = none ∧ decodeTableWord 48 0x430002000001 = none ∧
    decodeTableWord 48 0x400000000101 = none ∧ decodeTableWord 48 0x510000020179 = none ∧
    decodeTableWord 8 4 = none := by decide

/-- R109. -/
theorem test_decode_on_wire :
    decodeOnWire (some 0x770000000065) 0x6900000000E5 = .ok (.sdSendOpCond 0) ∧
    decodeOnWire (some 0x400000000095) 0x6900000000E5 = .error (.reservedIndex 41) ∧
    decodeOnWire none 0x42000000004D = .ok .allSendCid := by decide

/-- The encoder against section 2.2. -/
theorem test_encode :
    encode .goIdleState = [0x40, 0, 0, 0, 0, 0x95] ∧ encode .sendIfCond = [0x48, 0, 0, 1, 0xAA, 0x87] ∧
    encode (.appCmd 0x00010000) = [0x77, 0, 1, 0, 0, 0x3B] ∧ encode .setBusWidth = [0x46, 0, 0, 0, 2, 0xCB] ∧
    encode (.openDesc ⟨1, 2, 3⟩) = [1, 0, 0, 0, 1, 0, 0, 0, 2, 0, 0, 0, 3] := by decide

/-! ## Well-formedness: an ill-formed term for each check -/

theorem smoke_selectCard_without_rca : Instr.wf (.selectCard 0) = false := by decide
theorem smoke_readSingleBlock_unaligned : Instr.wf (.readSingleBlock 0x201) = false := by decide
theorem smoke_good : Instr.wf (.selectCard 0x10000) = true ∧ Instr.wf (.readSingleBlock 0x200) = true := by decide

/-! ## Pure functions -/

/-- Section 2.1. -/
theorem test_crc7 :
    crc7 [] = 0 ∧ crc7 [true] = 0x09 ∧ crc7 (bitsMsb 0x80#8) = 0x41 ∧ crc7 (bitsMsb 0xFF#8) = 0x79 ∧
    crc7 (bitsMsb 0x6940000000#40) = 0x3B ∧ crc7 (List.replicate 120 true) = 0x7F ∧
    crc7 (bitsMsb 0x4000000000#40 ++ bitsMsb 0x4A#7) = 0 := by decide +kernel

/-- Section 2.8. -/
theorem test_crc16 :
    crc16 [] = 0 ∧ crc16 [0x01] = 0x1021 ∧ crc16 [0x80] = 0x9188 ∧ crc16 [0xA5, 0x3C] = 0x1554 ∧
    crc16 [0x31, 0x32, 0x33, 0x34, 0x35, 0x36, 0x37, 0x38, 0x39] = 0x31C3 ∧
    lineCrcs [0xA5, 0x3C] = (0x9129, 0x50A5, 0xA14A, 0x60C6) := by decide +kernel

/-- Section 2.8, a whole block on one line and on four. -/
theorem test_crc16_block :
    crc16 blk0.toList = 0x40DA ∧ lineCrcs blk0.toList = (0x7357, 0x10B5, 0xA97D, 0x6AA3) := by decide +kernel

/-- Section 2.8: the lines of `A5 3C`. -/
theorem test_line4 :
    line4 [0xA5, 0x3C] 3 = [true, false, false, true] ∧ line4 [0xA5, 0x3C] 0 = [false, true, true, false] := by
  decide

/-- Section 2.3: two good responses and the checks of SET_BLOCKLEN. -/
theorem test_checks :
    (rspFrame 16 0x00000900 (rspCrc 16 0x00000900) = 0x10000009000B) ∧
    (rspFrame 3 0x12340500 (rspCrc 3 0x12340500) = 0x031234050021) ∧
    checkRsp 16 .r1 (.ofFrame 0x10000009000B) = none ∧
    checkRsp 16 .r1 (.ofFrame 0x100000090009) = some .rspCrc ∧
    checkRsp 16 .r1 (.ofFrame 0x110000090067) = some .cmdIndex ∧
    checkRsp 16 .r1 (.ofFrame 0x11000009000B) = some .rspCrc ∧
    checkRsp 41 .r3 (.ofFrame 0x0100FF8000FF) = none := by decide +kernel

/-- Section 2.3, 136-bit responses: the end bit is not checked. -/
theorem test_reg_crc :
    regCrcGood sdCid = true ∧ regCrcGood mmcCid = true ∧ regCrcGood refCsd = true ∧ regCrcGood csd2 = true ∧
    regCrcGood (refCsd ^^^ 2#128) = false ∧ regCrcGood (refCsd ^^^ 1#128) = true := by decide +kernel

/-- Section 2.4. -/
theorem test_field :
    field [0x12, 0x34, 0x56, 0x78, 0x9A] 12 12 = some 0x567 ∧
    field [0x12, 0x34, 0x56, 0x78, 0x9A] 4 32 = some 0x23456789 ∧
    field [0x12, 0x34, 0x56, 0x78, 0x9A] 9 32 = none ∧ field [0x12, 0x34, 0x56, 0x78, 0x9A] 0 33 = none ∧
    field [0x12, 0x34, 0x56, 0x78, 0x9A] 0 0 = none := by decide

/-- Section 2.4: the capacities. -/
theorem test_csd :
    (csdReadBlLen csd2, csdCSize csd2, csdCSizeMult csd2) = (10, 1898, 5) ∧ csdDeviceSize csd2 = 248905728 ∧
    csdDeviceSize refCsd = 0x40000000 ∧ csdDeviceSize (BitVec.allOnes 128) = 2 ^ 36 ∧ csdDeviceSize 1 = 4 := by
  decide +kernel

/-- Section 2.5. -/
theorem test_ocr_rca :
    ocrReady 0x80000000 = true ∧ ocrReady 0x7FFFFFFF = false ∧
    be16 [0x12, 0x34, 0x05, 0x00] 0 = 0x1234 ∧ be32 [0x80, 0xFF, 0x80, 0x00] 0 = 0x80FF8000 := by decide

/-- Section 2.10: addresses and the window. -/
theorem test_window :
    blockBase 1614 = 0x600 ∧ blockOff 1614 = 78 ∧ blockBase 0xFFFFFFFF = 0xFFFFFE00 ∧ blockOff 0xFFFFFFFF = 511 ∧
    inWindow 0x200 0x1FF = false ∧ inWindow 0x200 0x200 = true ∧ inWindow 0x200 0x3FF = true ∧
    inWindow 0x200 0x400 = false ∧ inWindow 0xFFFFFFFF 0xFFFFFFFF = false := by decide

/-- Section 2.6: refused descriptor words. -/
theorem test_descriptor_words :
    Descriptor.ofWord 0x1851 = none ∧ Descriptor.ofWord 0x01D1 = none ∧
    Descriptor.ofWord 0x0851 = some Cmd.readSingleBlock.descriptor := by decide

/-! ## One step: the rows of section 2.7 -/

theorem test_goIdleState : ends (exec .goIdleState (tSd [tRsp 0 0])) (.status .ok) [0x400000000095] = true := by
  decide +kernel

theorem test_sendIfCond :
    ends (exec .sendIfCond (tSd [tFrame 0x08000001AA13])) (.status .ok) [0x48000001AA87] = true := by
  decide +kernel

/-- No response: the status, and the 300 ms of the wait. -/
theorem test_sendIfCond_silent :
    after (exec .sendIfCond (tSd [tNone])) (fun t => decide (t.result = .status .timeout) && decide (t.nowMs = 300))
      = true := by decide +kernel

theorem test_sendOpCond :
    after (exec (.sendOpCond 0x00FF8000) (tSd [tFrame 0x3F80FF8000FF])) (fun t =>
      decide (t.result = .status .ok) && decide (decodeOcr t.rb = 0x80FF8000) &&
      decide (framesOf t.trace = [0x4100FF800099])) = true := by decide +kernel

theorem test_sdSendOpCond :
    ends (exec (.sdSendOpCond 0) (tSd [tFrame 0x370000012083, tFrame 0x3F00FF8000FF])) (.status .ok)
      [0x7712340000BF, 0x6900000000E5] = true := by decide +kernel

/-- A bad prefix: the second frame is not sent, the second answer not taken. -/
theorem test_sdSendOpCond_bad_prefix :
    after (exec (.sdSendOpCond 0) (tSd [tFrame 0x370000012081, tNone])) (fun t =>
      decide (t.result = .status .crcError) && decide (framesOf t.trace = [0x7712340000BF]) &&
      decide (t.card = [tNone])) = true := by decide +kernel

theorem test_setBusWidth :
    ends (exec .setBusWidth (tSd [tFrame 0x370000092033, tFrame 0x0600000920B9])) (.status .ok)
      [0x7712340000BF, 0x4600000002CB] = true := by decide +kernel

theorem test_selectCard :
    ends (exec (.selectCard 0x12340000) (tSd [tFrame 0x070000070075])) (.status .ok) [0x471234000059] = true := by
  decide +kernel

theorem test_selectCard_busy :
    after (exec (.selectCard 0x12340000) (tSd [⟨goodRsp 7 0x700, false, .noData⟩])) (fun t =>
      decide (t.result = .status .timeout) && decide (t.nowMs = 300)) = true := by decide +kernel

theorem test_deselectCard :
    after (exec .deselectCard (tSd [])) (fun t =>
      decide (t.result = .status .ok) && decide (t.clkSel = .oper) &&
      decide (t.trace = [⟨.frame 0x470000000083 .oper, 0⟩, ⟨.delayUs 0, 0⟩, ⟨.clock .oper, 0⟩])) = true := by
  decide +kernel

/-- R340: a settle time below a millisecond still shows on the timer. -/
theorem test_settle :
    after (exec .deselectCard { tSd [] with cfg := { tCfg with clkSettleUs := 1 } }) (fun t =>
      decide (t.trace = [⟨.frame 0x470000000083 .oper, 1⟩, ⟨.delayUs 1, 0⟩, ⟨.clock .oper, 0⟩])) = true := by
  decide +kernel

theorem test_setBlocklen :
    ends (exec .setBlocklen (tSd [tFrame 0x110000090067])) (.status .commandError) [0x500000020015] = true := by
  decide +kernel

theorem test_stopTransmission :
    ends (exec .stopTransmission (tSd [tFrame 0x0C00000B007F])) (.status .ok) [0x4C0000000061] = true := by
  decide +kernel

theorem test_allSendCid :
    after (exec .allSendCid (tSd [tReg sdCid])) (fun t =>
      decide (t.result = .status .ok) && decide (t.rb = regBytes sdCid)) = true := by decide +kernel

theorem test_sendCsd_bad_crc :
    ends (exec (.sendCsd 0x12340000) (tSd [tReg (refCsd ^^^ 2#128)])) (.status .crcError) [0x491234000075] = true := by
  decide +kernel

theorem test_sendRelativeAddr :
    after (exec .sendRelativeAddr (tState [tFrame 0x031234050021])) (fun t =>
      decide (t.result = .status .ok) && decide (decodeRca t.rb = 0x1234) && decide (t.session.rca = 0)) = true := by
  decide +kernel

theorem test_setRelativeAddr :
    ends (exec .setRelativeAddr (tState [tFrame 0x0300000500FB])) (.status .ok) [0x43000100007F] = true := by
  decide +kernel

theorem test_appCmd :
    ends (exec (.appCmd 0) (tState [tFrame 0x370000012083])) (.status .ok) [0x770000000065] = true := by
  decide +kernel

theorem test_readSingleBlock :
    after (exec (.readSingleBlock 0) (tSd [⟨.ofFrame 0x110000090067, true, .data blk0 0x40DA⟩])) (fun t =>
      decide (t.result = .status .ok) && decide (t.cache = ⟨0, blk0⟩) &&
      decide (framesOf t.trace = [0x510000000055])) = true := by decide +kernel

/-- A failed read leaves the cache empty (R79 b, R269), and so does one without a card (R50 f). -/
theorem test_readSingleBlock_bad_data :
    after (exec (.readSingleBlock 0) { tCached with card := [⟨.ofFrame 0x110000090067, true, .data blk0 0x40DB⟩] })
      (fun t => decide (t.result = .status .crcError) && decide (framesOf t.trace = [0x510000000055]) &&
        decide (t.cache.base = 0xFFFFFFFF)) = true ∧
    after (exec (.readSingleBlock 0) (tState [⟨.ofFrame 0x110000090067, true, .data blk0 0x40DA⟩])) (fun t =>
      decide (t.result = .status .ok) && decide (t.cache.base = 0xFFFFFFFF)) = true := by decide +kernel

/-- The card of program P1. -/
def p1Card : List Answer :=
  [tNone, tFrame 0x08000001AA13, tFrame 0x370000012083, tFrame 0x3F00FF8000FF, tFrame 0x370000012083,
    tFrame 0x3F00FF8000FF, tFrame 0x370000012083, tFrame 0x3F80FF8000FF, tFrame 0x370000012083,
    tFrame 0x3F80FF8000FF, tReg sdCid, tFrame 0x031234050021, tReg refCsd]

/-- Program P1: thirteen frames and the session they leave. -/
theorem test_acquire_sd :
    after (exec .acquire (tState p1Card)) (fun t =>
      decide (t.session = ⟨true, true, 0x1234, sdCid, refCsd, 512, 2097152, 0x40000000, 0⟩) &&
      decide (t.result = .acquired true) && decide (t.acqResult = .acquired) && decide (t.nowMs = 20) &&
      decide (framesOf t.trace =
        [0x400000000095, 0x48000001AA87, 0x770000000065, 0x6900000000E5, 0x770000000065, 0x6900000000E5,
          0x770000000065, 0x6900000000E5, 0x770000000065, 0x6900FF800085, 0x42000000004D, 0x430000000021,
          0x491234000075])) = true := by decide +kernel

/-- Program P2: no card. -/
theorem test_acquire_no_card :
    after (exec .acquire (tState [])) (fun t =>
      decide (t.session = Session.zero) && decide (t.acqResult = .noCard) && decide (t.nowMs = 900) &&
      decide (framesOf t.trace = [0x400000000095, 0x48000001AA87, 0x770000000065, 0x4100000000F9])) = true := by
  decide +kernel

/-- Section 2.10: OPEN. -/
theorem test_open :
    ends (exec (.openDesc ⟨0, 4096, 0⟩) (tSd [])) (.status .ok) [] = true ∧
    ends (exec (.openDesc ⟨0, 4096, 0⟩) (tState [])) (.status .genericFailure) [] = true := by decide +kernel

/-- Section 2.10: SEEK. -/
theorem test_seek :
    ends (exec (.seek ⟨0, 600, 0⟩ 600) (tSd [])) (.cursor 600) [] = true ∧
    ends (exec (.seek ⟨0, 600, 0⟩ 1000) (tSd [])) (.cursor 600) [] = true ∧
    ends (exec (.seek ⟨0, 600, 300⟩ 0) (tState [])) (.cursor 0) [] = true ∧
    refusedAs (exec (.seek ⟨0xFFFFFE00, 0x201, 0⟩ 0) (tSd [])) .malformedDescriptor = true := by decide +kernel

/-- The card of program P3. -/
def p3Card : List Answer :=
  [tNone, tFrame 0x070000070075, tFrame 0x10000009000B, ⟨.ofFrame 0x110000090067, true, .data blk0 0x40DA⟩,
    tNone, tFrame 0x070000070075, tFrame 0x10000009000B, ⟨.ofFrame 0x110000090067, true, .data blk1 0x6B2F⟩]

/-- Program P3: the read that straddles two blocks. -/
theorem test_read_straddling :
    after (exec (.read ⟨0, 4096, 500⟩ 100 100) (tSd p3Card)) (fun t =>
      decide (t.result = .read 100 .ok 600) && decide (t.cache = ⟨0x200, blk1⟩) &&
      decide ((List.range 14).map (fun i => Memory.get t.caller i) =
        [0xF4, 0xF5, 0xF6, 0xF7, 0xF8, 0xF9, 0xFA, 0xFB, 0xFC, 0xFD, 0xFE, 0xFF, 0x03, 0x0A]) &&
      decide ((List.range 3).map (fun i => Memory.get t.caller (98 + i)) = [0x5D, 0x64, 0]) &&
      decide (framesOf t.trace =
        [0x470000000083, 0x471234000059, 0x500000020015, 0x510000000055,
          0x470000000083, 0x471234000059, 0x500000020015, 0x510000020079])) = true := by decide +kernel

/-- Section 2.10: a read inside the window sends nothing (T3). -/
theorem test_read_cached :
    ends (exec (.read ⟨0, 4096, 100⟩ 412 412) tCached) (.read 412 .ok 512) [] = true := by decide +kernel

/-- Requests at the port: an empty port, a host operation, and bytes that name nothing. -/
theorem test_step :
    after (step (tState [])) (fun t => decide (t.trace = [])) = true ∧
    ends (step ((tSd []).withFetchWord 8 3)) (.cursor 0) [] = true ∧
    refusedAs (step { tState [] with port := [0xFF] }) (.undecodable .reservedOp) = true := by decide +kernel

/-! ## Realization and port -/

/-- Section 2.6. -/
theorem test_xferTyp : xferTyp Cmd.readSingleBlock.descriptor = 0x1E ∧ xferTyp Cmd.setBlocklen.descriptor = 0x06 := by
  decide

/-- R64: byte `4j` in bits 7 to 0. -/
theorem test_packWords : packWords [1, 2, 3, 4, 5, 6, 7, 8] = [0x04030201, 0x08070605] := by decide

/-- The register view after P1: acquired, SD, `acq_result` 1, RCA. -/
theorem test_port : portRead (tSd []) 0x24 = some 0x12340007 ∧ portRead (tSd []) 0x48 = some 512 := by
  decide +kernel

/-! ## Witnesses: for each statement with hypotheses, a state and operands that meet them -/

theorem exists_next {o : Host.Outcome State Fault Refusal} {p : State → Bool} (h : after o p = true) :
    ∃ t, o = .next t := by
  cases o with
  | next t => exact ⟨t, rfl⟩
  | fault f => cases f
  | refused r => cases h

/-- Operands at the ends of their ranges. -/
theorem witness_DecodeOfEncodeIsTheInstruction :
    Instr.wf (.selectCard 1) = true ∧ Instr.wf (.selectCard 0xFFFFFFFF) = true ∧
    Instr.wf (.readSingleBlock 0) = true ∧ Instr.wf (.readSingleBlock 0xFFFFFE00) = true ∧ Instr.wf .acquire = true := by
  decide

theorem witness_DecodedBytesAreTheTableRow :
    decode [0] = .ok (.acquire, []) ∧ cmdOf .acquire = none ∧
    decode [0x47, 0, 0, 0, 0, 0x83] = .ok (.deselectCard, []) ∧ cmdOf .deselectCard = some (.deselectCard, 0) ∧
    decode [0x47, 0, 0, 0, 1, 0x01] = .ok (.selectCard 1, []) := by decide

theorem witness_RowsOverlapOnlyAtIndexSeven :
    (0x470000000083#48) &&& Cmd.selectCard.mask = Cmd.selectCard.pattern ∧
    (0x470000000083#48) &&& Cmd.deselectCard.mask = Cmd.deselectCard.pattern := by decide

theorem witness_ApplicationCommandsNeedTheirPrefixOnTheWire :
    frameIndex 0x4600000002CB = 6#6 ∧ frameIndex 0x6900000000E5 = 41#6 ∧ frameIndex 0x770000000065 = 55#6 ∧
    frameIndex 0x400000000095 ≠ 55#6 := by decide

theorem witness_DescriptorWordRoundTrip : Cmd.readSingleBlock.descriptor.write = false := rfl

/-- Both clauses at the ends of the domain. -/
theorem witness_FieldReadsTheTransmittedBits :
    (1 ≤ 1 ∧ 1 ≤ 32 ∧ 127 + 1 ≤ 8 * (bytes16 refCsd).length) ∧ (1 ≤ 32 ∧ 32 ≤ 32 ∧ 96 + 32 ≤ 8 * (bytes16 refCsd).length) ∧
    ¬(1 ≤ 1 ∧ 1 ≤ 32 ∧ 128 + 1 ≤ 8 * (bytes16 refCsd).length) ∧ ¬(1 ≤ 33 ∧ 33 ≤ 32 ∧ 0 + 33 ≤ 8 * (bytes16 refCsd).length) := by
  decide

theorem witness_CapacityFitsItsRegisters :
    (tSd []).session.csd = refCsd ∧ csdCSize refCsd = 4095 ∧ csdCSizeMult refCsd = 7 ∧ csdReadBlLen refCsd = 9 := by
  decide +kernel

theorem witness_WindowHoldsExactlyItsBlock :
    (0xFFFFFE00#32) &&& 0x1FF#32 = 0#32 ∧ inWindow 0xFFFFFE00 0xFFFFFFFF = true ∧ inWindow 0x200 0x1FF = false := by
  decide

theorem witness_ResponseBufferHoldsThePayloadTwice : 15 < 16 := by decide

theorem witness_DataFramesInterleaveTheirLines :
    511 < blk0.toList.length ∧ 4095 < 8 * blk0.toList.length := by rw [blk0.size]; decide

theorem witness_RealizationMovesTheSameBytes : 1 ≤ tCfg.wordsPerPoll := by decide

/-- Success at once with no budget, success at the second poll, failure exactly at the budget. -/
theorem witness_WaitsEndByConditionOrBudget :
    waitUntil 5 0 [⟨true, 9⟩] = some true ∧ waitUntil 5 10 [⟨false, 14⟩, ⟨true, 99⟩] = some true ∧
    waitUntil 5 10 [⟨false, 14⟩, ⟨false, 15⟩] = some false ∧ dataWait 0 [⟨false, 1⟩, ⟨true, 2⟩] = some .ok ∧
    dataWait 0 [⟨false, 300⟩] = some .timeout := by decide

/-- The three kinds of answer that the clauses of the command statements tell apart, and within the 48-bit ones a wrong
CRC, a wrong index and a good one, busy released and not. -/
theorem witness_answers_of_commands :
    (answerAt (tSd [tNone]) 0).rsp = .noResponse ∧ (answerAt (tSd []) 0).rsp = .noResponse ∧
    (answerAt (tSd [tFrame 0x100000090009]) 0).rsp = .rsp48 16 0x900 4 ∧ (4#7) ≠ rspCrc 16 0x900 ∧
    (answerAt (tSd [tFrame 0x110000090067]) 0).rsp = .rsp48 17 0x900 0x33 ∧ (0x33#7) = rspCrc 17 0x900 ∧
    (answerAt (tSd [tFrame 0x10000009000B]) 0).rsp = .rsp48 16 0x900 5 ∧ (5#7) = rspCrc 16 0x900 ∧
    (answerAt (tSd [tReg refCsd]) 0).rsp = .rsp136 refCsd ∧ regCrcGood refCsd = true ∧
    (answerAt (tSd [tReg (refCsd ^^^ 2#128)]) 0).rsp = .rsp136 (refCsd ^^^ 2#128) ∧
    regCrcGood (refCsd ^^^ 2#128) = false := by decide +kernel

/-- The rows that the grouped command statements name, with their indices, arguments and clocks. -/
theorem witness_rows_of_commands :
    (Instr.sendCsd 5, 9#6, 5#32) ∈ [(Instr.allSendCid, 2#6, 0#32), (Instr.sendCsd 5, 9#6, 5#32)] ∧
    (Instr.setBlocklen, 16#6, 512#32, false) ∈
      [(Instr.setRelativeAddr, 3#6, 0x00010000#32, true), (Instr.setBlocklen, 16#6, 512#32, false)] ∧
    (Instr.stopTransmission, 12#6, 0#32) ∈ [(Instr.selectCard 5, 7#6, 5#32), (Instr.stopTransmission, 12#6, 0#32)] ∧
    (Instr.setBusWidth, false) ∈ [(Instr.setBusWidth, false), (Instr.sdSendOpCond 5, true)] := by decide

theorem witness_BusyCommandsWaitForRelease :
    (answerAt (tSd [tRsp 7 0x700]) 0).rsp = .rsp48 7 0x700 (rspCrc 7 0x700) ∧
    (answerAt (tSd [tRsp 7 0x700]) 0).busyReleased = true ∧
    (answerAt (tSd [⟨goodRsp 12 0, false, .noData⟩]) 0).rsp = .rsp48 12 0 (rspCrc 12 0) ∧
    (answerAt (tSd [⟨goodRsp 12 0, false, .noData⟩]) 0).busyReleased = false := by decide

/-- The prefix good, and the second answer of each kind. -/
theorem witness_application_pairs :
    (answerAt (tSd [tRsp 55 0x120, tNone]) 0).rsp = goodRsp 55#6 0x120 ∧
    (answerAt (tSd [tRsp 55 0x120, tNone]) 1).rsp = .noResponse ∧
    (answerAt (tSd [tRsp 55 0x120, tRsp 6 0x920]) 1).rsp = .rsp48 6 0x920 (rspCrc 6 0x920) ∧
    (answerAt (tSd [tRsp 55 0x120, tReg 0]) 1).rsp = .rsp136 0 := by decide

/-- READ_SINGLE_BLOCK's data answers: none, a good and a bad frame on one line, a good one on four. -/
theorem witness_ReadSingleBlockFillsTheBuffer :
    let good : Answer := ⟨goodRsp 17 0x900, true, .data blk0 0x40DA⟩
    let wide : Answer := ⟨goodRsp 17 0x900, true, .data4 blk0 0x7357 0x10B5 0xA97D 0x6AA3⟩
    (answerAt (tSd [good]) 0).rsp = goodRsp 17#6 0x900 ∧ (answerAt (tSd [tRsp 17 0x900]) 0).data = .noData ∧
    (tSd [good]).session.acquired = true ∧ (tState [good]).session.acquired = false ∧
    (0xFFFFFE00#32) &&& 0x1FF#32 = 0#32 ∧ (0xFFFFFE01#32) &&& 0x1FF#32 ≠ 0#32 ∧
    (tSd [good]).busWide = false ∧ (0x40DA#16) = crc16 blk0.toList ∧ (0x40DB#16) ≠ crc16 blk0.toList ∧
    ({ tSd [wide] with busWide := true } : State).busWide = true ∧
    (0x7357#16, 0x10B5#16, 0xA97D#16, 0x6AA3#16) = lineCrcs blk0.toList := by
  refine ⟨rfl, rfl, rfl, rfl, ?_, ?_, rfl, ?_, ?_, rfl, ?_⟩ <;> decide +kernel

/-- A command completes, with the clock selected and with the clock to change. -/
theorem witness_completed_commands :
    (∃ t, exec .goIdleState (tSd []) = .next t) ∧ (tSd []).clkSel = clockOf Cmd.goIdleState.descriptor.ls ∧
    (∃ t, exec .setBlocklen (tSd [tFrame 0x110000090067]) = .next t) ∧
    (tSd []).clkSel ≠ clockOf Cmd.setBlocklen.descriptor.ls :=
  ⟨exists_next test_goIdleState, rfl, exists_next test_setBlocklen, by decide⟩

/-- The rule of `a`, with these answers and this `ocr`, leads to `next`. -/
def ruleGoes (a : AcqState) (card : List Answer) (ocr : Word) (next : AcqState) : Bool :=
  match acqStep { tState card with acqState := a, ocr := ocr } with
  | .ok t => decide (t.acqState = next)
  | .error _ => false

/-- One ready answer to an ACMD41 pair, and one to CMD1. -/
def tReady : List Answer := [tFrame 0x370000012083, tFrame 0x3F80FF8000FF]

/-- Each row of the table of R249, the ways out of the commands and of the checks on both sides. -/
theorem witness_AcquisitionFollowsTheTransitionTable :
    ruleGoes .idle [] 0 .idle && ruleGoes .done [] 0 .done && ruleGoes .failed [] 0 .failed &&
    ruleGoes .reset [] 0 .trySdOpCond && ruleGoes .trySdOpCond tReady 0 .checkSdOcr &&
    ruleGoes .trySdOpCond [] 0 .tryMmcOpCond &&
    ruleGoes .trySdOpCond [tRsp 54 0] 0 .failed &&
    ruleGoes .checkSdOcr [] 0x80FF8000 .negotiateSdOcr && ruleGoes .checkSdOcr [] 0x7FFFFFFF .pollSdOcr &&
    ruleGoes .pollSdOcr tReady 0 .negotiateSdOcr && ruleGoes .negotiateSdOcr tReady 0x00FF8000 .getCidSd &&
    ruleGoes .getCidSd [tReg sdCid] 0 .getRcaSd && ruleGoes .getCidSd [] 0 .failed &&
    ruleGoes .getRcaSd [tFrame 0x031234050021] 0 .getCsdSd && ruleGoes .getRcaSd [] 0 .failed &&
    ruleGoes .getCsdSd [tReg refCsd] 0 .done && ruleGoes .getCsdSd [] 0 .failed = true := by decide +kernel

theorem witness_AcquisitionFollowsTheTransitionTable_mmc :
    ruleGoes .tryMmcOpCond tReady.tail 0 .checkMmcOcr && ruleGoes .tryMmcOpCond [] 0 .failed &&
    ruleGoes .checkMmcOcr [] 0x80FF8000 .negotiateMmcOcr && ruleGoes .checkMmcOcr [] 0x7FFFFFFF .pollMmcOcr &&
    ruleGoes .pollMmcOcr tReady.tail 0 .negotiateMmcOcr &&
    ruleGoes .negotiateMmcOcr tReady.tail 0x00FF8000 .getCidMmc &&
    ruleGoes .getCidMmc [tReg mmcCid] 0 .setRcaMmc && ruleGoes .getCidMmc [] 0 .failed &&
    ruleGoes .setRcaMmc [tFrame 0x0300000500FB] 0 .getCsdMmc && ruleGoes .setRcaMmc [] 0 .failed &&
    ruleGoes .getCsdMmc [tReg refCsd] 0 .done && ruleGoes .getCsdMmc [] 0 .failed = true := by decide +kernel

/-- How a loop ends. -/
def loopEnds (r : Res Bool) (ok : Bool) (tries : Nat) : Bool :=
  match r with
  | .ok (ok', t) => decide (ok' = ok) && decide (t.tries = tries)
  | .error _ => false

theorem exists_loop {r : Res Bool} {ok : Bool} {n : Nat} (h : loopEnds r ok n = true) : ∃ t, r = .ok (ok, t) := by
  unfold loopEnds at h
  split at h
  · rename_i ok' t
    simp only [Bool.and_eq_true, decide_eq_true_eq] at h
    exact ⟨t, by rw [h.1]⟩
  · cases h

/-- R227: the tenth try succeeding is a success; ten tries without the bit are a failure. -/
theorem test_pollLoop :
    loopEnds (pollLoop .mmc (tState (List.replicate 9 (tFrame 0x3F00FF8000FF) ++ [tFrame 0x3F80FF8000FF]))) true 10
      = true ∧
    loopEnds (pollLoop .mmc (tState [])) false 10 = true := by decide +kernel

/-- R229: with a ceiling of one try, a card that is not ready fails at once; with a wall-clock ceiling of 5 ms the delay
of 10 ms after the first try is over too late for a second, unless the implementation follows R228 to the letter. -/
theorem test_negotiateLoop :
    loopEnds (negotiateLoop .mmc (tState [tFrame 0x3F80FF8000FF])) true 1 = true ∧
    loopEnds (negotiateLoop .mmc { tState [tFrame 0x3F00FF8000FF] with cfg := { tCfg with negMaxTries := 1 } }) false 1
      = true ∧
    loopEnds (negotiateLoop .mmc
      { tState [tFrame 0x3F00FF8000FF, tFrame 0x3F80FF8000FF] with cfg := { tCfg with negMaxMs := 5 } }) false 1 = true ∧
    loopEnds (negotiateLoop .mmc
      { tState [tFrame 0x3F00FF8000FF, tFrame 0x3F80FF8000FF] with cfg := { tCfg with negMaxMs := 11 } }) true 2 = true ∧
    loopEnds (negotiateLoop .mmc
      { tState [tFrame 0x3F00FF8000FF, tFrame 0x3F80FF8000FF] with
        cfg := { tCfg with negMaxMs := 5, negRecheck := false } }) true 2 = true := by
  decide +kernel

theorem witness_PollLoopIsBounded :
    (∃ s t, pollLoop .mmc s = .ok (true, t)) ∧ (∃ s t, pollLoop .mmc s = .ok (false, t)) :=
  ⟨⟨_, exists_loop test_pollLoop.1⟩, ⟨_, exists_loop test_pollLoop.2⟩⟩

theorem witness_NegotiationIsBounded :
    tCfg.wf = true ∧ (∃ s t, negotiateLoop .mmc s = .ok (true, t)) ∧ (∃ s t, negotiateLoop .mmc s = .ok (false, t)) :=
  ⟨by decide, ⟨_, exists_loop test_negotiateLoop.1⟩, ⟨_, exists_loop test_negotiateLoop.2.1⟩⟩

/-- Both outcomes of an ACQUIRE, with well-formed parameters, from between operations. -/
theorem witness_acquire :
    (∃ t, exec .acquire (tState p1Card) = .next t) ∧ (∃ t, exec .acquire (tState []) = .next t) ∧
    (tState []).cfg.wf = true ∧ (tState []).between = true ∧
    ({ tState [] with rfState := .read } : State).between = false :=
  ⟨exists_next test_acquire_sd, exists_next test_acquire_no_card, by decide, by decide, by decide⟩

/-- A refused ACQUIRE, and the place of the answer it was refused for: a register after CMD8. -/
theorem witness_AcquireAlwaysEnds :
    refusedAs (exec .acquire (tState [tNone, tReg refCsd])) .answerLength = true ∧
    after (exec .acquire { tState [tNone, tReg refCsd] with card := [tNone, tReg refCsd].take 1 }) (fun t =>
      match (framesOf t.trace)[1]? with
      | some f => misfit f (tReg refCsd).rsp
      | none => false) = true := by decide +kernel

theorem witness_SilentCardIsNoCard :
    (tState []).between = true ∧ silentCard (tState []) = true ∧ silentCard (tState [tNone, tNone]) = true := by decide

/-- Program P1's card as the answers of the SD scenario. -/
theorem witness_SdCardIsAcquired :
    let notReady := (tRsp 55 0x120, tFrame 0x3F00FF8000FF)
    let ready := (tRsp 55 0x120, tFrame 0x3F80FF8000FF)
    (tState p1Card).between = true ∧ (tState p1Card).cfg.cmd8Enable = true ∧
    (tState p1Card).card = [tNone, tFrame 0x08000001AA13] ++ pairAnswers (notReady :: [notReady] ++ [ready, ready]) ++
      [tReg sdCid, tRsp 3 0x12340500, tReg refCsd] ++ [] ∧
    (∀ c, (tFrame 0x08000001AA13).rsp ≠ .rsp136 c) ∧ ocrPair false notReady ∧ ocrPair true ready ∧
    [notReady].length < Config.pollTries ∧ regCrcGood sdCid = true ∧ regCrcGood refCsd = true ∧
    (tRsp 3 0x12340500).rsp = goodRsp 3#6 0x12340500 := by
  refine ⟨by decide, rfl, by decide +kernel, ?_, ⟨⟨_, rfl⟩, ⟨_, _, _, rfl, by decide⟩⟩,
    ⟨⟨_, rfl⟩, ⟨_, _, _, rfl, by decide⟩⟩, by decide, by decide +kernel, by decide +kernel, rfl⟩
  intro c h
  cases h

/-- Program P4's card, ready at the first probe. -/
theorem witness_MmcCardIsAcquired :
    let card := [tNone, tNone, tNone, tFrame 0x3F80FF8000FF, tFrame 0x3F80FF8000FF, tReg mmcCid, tRsp 3 0x500, tReg csd2]
    (tState card).between = true ∧ (tState card).card = card ++ [] ∧ (∀ r, tNone.rsp ≠ .rsp136 r) ∧
    tNone.rsp = .noResponse ∧ (tFrame 0x3F80FF8000FF).rsp = .rsp48 63 0x80FF8000 0x7F ∧ ocrReady 0x80FF8000 = true ∧
    regCrcGood mmcCid = true ∧ regCrcGood csd2 = true ∧ (tRsp 3 0x500).rsp = goodRsp 3#6 0x500 := by
  refine ⟨by decide, rfl, (fun r h => nomatch h), rfl, by decide, by decide, by decide +kernel, by decide +kernel, rfl⟩

/-- Descriptors at the edges of well-formedness. -/
theorem witness_descriptors :
    (tSd []).between = true ∧ descWf ⟨0xFFFFFE00, 0x200, 0x200⟩ = true ∧ descWf ⟨0xFFFFFE00, 0x201, 0⟩ = false ∧
    descWf ⟨0, 100, 101⟩ = false ∧ (99#32).toNat < (100#32).toNat ∧ (100#32).toNat ≤ (100#32).toNat := by decide

theorem witness_ReadOfNothingReturnsAtOnce :
    (tState []).session.acquired = false ∧ (tSd []).session.acquired = true ∧
    descWf ⟨0, 4096, 4096⟩ = true := by decide

/-- 412 bytes from offset 100 of block 0 end exactly at the window's end. -/
theorem witness_ReadInsideTheWindowUsesTheCache :
    tCached.between = true ∧ descWf ⟨0, 4096, 100⟩ = true ∧ tCached.session.acquired = true ∧
    cacheAligned tCached = true ∧ Memory.wf tCached.caller = true ∧ clip ⟨0, 4096, 100⟩ 412 = 412 ∧
    (∀ k, k < clip ⟨0, 4096, 100⟩ 412 → inWindow tCached.cache.base (cardAddr ⟨0, 4096, 100⟩ k) = true) := by
  refine ⟨by decide, by decide, by decide, by decide, by decide, by decide, fun k hk => ?_⟩
  replace hk : k < 412 := hk
  have h : (cardAddr ⟨0, 4096, 100⟩ k).toNat = 100 + k := by
    show (0 + 100 + k) % 2 ^ 32 = 100 + k
    omega
  generalize cardAddr ⟨0, 4096, 100⟩ k = a at h
  simp [inWindow, tCached, Config.cacheInvalid, Config.workBlock]
  omega

/-- Program P3's first refill: a read of 12 bytes from 500 ends at the block's end, one of 13 straddles. -/
theorem witness_refilling_reads :
    (tSd p3Card).between = true ∧ (tSd p3Card).session.acquired = true ∧
    ((tSd p3Card).session.sd && (tSd p3Card).cfg.hostWide) = false ∧ wideOnlySd (tSd p3Card) = true ∧
    Memory.wf (tSd p3Card).caller = true ∧ 0 < clip ⟨0, 4096, 500⟩ 12 ∧
    blockOff (cardAddr ⟨0, 4096, 500⟩ 0) + clip ⟨0, 4096, 500⟩ 12 ≤ 512 ∧
    512 < blockOff (cardAddr ⟨0, 4096, 500⟩ 0) + clip ⟨0, 4096, 500⟩ 13 ∧
    blockOff (cardAddr ⟨0, 4096, 500⟩ 0) + clip ⟨0, 4096, 500⟩ 524 ≤ 1024 ∧
    inWindow (tSd p3Card).cache.base (cardAddr ⟨0, 4096, 500⟩ 0) = false ∧
    (tFrame 0x070000070075).rsp = goodRsp 7#6 0x700 ∧ (tFrame 0x070000070075).busyReleased = true ∧
    (tFrame 0x10000009000B).rsp = goodRsp 16#6 0x900 ∧ Rsp.ofFrame 0x110000090067 = goodRsp 17#6 0x900 ∧
    (0x40DA#16) = crc16 blk0.toList ∧ (0x6B2F#16) = crc16 blk1.toList := by decide +kernel

/-- Variant P3w: the same card on a wide host. -/
theorem witness_ReadRefillsOneBlockWide :
    ((tSd []).session.sd && ({ tSd [] with cfg := { tCfg with hostWide := true } } : State).cfg.hostWide) = true ∧
    (tFrame 0x370000092033).rsp = goodRsp 55#6 0x920 ∧ (tFrame 0x0600000920B9).rsp = goodRsp 6#6 0x920 := by
  decide +kernel

/-- A refill that succeeds and one that does not. -/
def refillEnds (r : Res Status) (st : Status) : Bool :=
  match r with
  | .ok (st', _) => decide (st' = st)
  | .error _ => false

theorem witness_RefillFillsOrEmptiesTheCache :
    refillEnds (refill 500 (tSd p3Card)) .ok = true ∧ refillEnds (refill 500 (tSd [])) .timeout = true := by
  decide +kernel

/-- Program P5's second refill: a wrong data checksum, and no data (variant P5t). -/
theorem test_refill_statuses :
    let bad : Answer := ⟨.ofFrame 0x110000090067, true, .data blk1 0x6B2E⟩
    let none : Answer := ⟨.ofFrame 0x110000090067, true, .noData⟩
    refillEnds (refill 512 (tSd (p3Card.take 3 ++ [bad]))) .crcError = true ∧ answerStatus 17 bad = .crcError ∧
    refillEnds (refill 512 (tSd (p3Card.take 3 ++ [none]))) .timeout = true ∧ answerStatus 17 none = .timeout ∧
    refillEnds (refill 512 (tSd [tNone, tFrame 0x10000009000B])) .commandError = true ∧
    answerStatus 7 (tFrame 0x10000009000B) = .commandError := by decide +kernel

/-- The bytes of a READ from the cached block and from the card: both kinds of byte, in one read that leaves the window
after its first byte. -/
theorem witness_ReadCountsWhatItCopied :
    let s := { tCached with card := p3Card.drop 4 }
    cacheAligned s = true ∧ inWindow s.cache.base (cardAddr ⟨0, 4096, 511⟩ 0) = true ∧
    blockBase (cardAddr ⟨0, 4096, 511⟩ 1) ≠ blockBase (cardAddr ⟨0, 4096, 511⟩ 0) ∧
    after (exec (.read ⟨0, 4096, 511⟩ 2 2) s) (fun t =>
      decide (t.result = .read 2 .ok 513) && decide (Memory.get t.caller 0 = 0xFF) &&
      decide (Memory.get t.caller 1 = blk1.toList.getD 0 0) &&
      decide ((framesOf t.trace)[3]? = some (cmdFrame 17 512))) = true := by decide +kernel

theorem witness_completed_reads :
    (∃ t, exec (.read ⟨0, 4096, 500⟩ 100 100) (tSd p3Card) = .next t) ∧ (tSd p3Card).session.acquired = true ∧
    Memory.wf (tSd p3Card).caller = true ∧ (∃ t, exec (.read ⟨0, 4096, 100⟩ 412 412) tCached = .next t) :=
  ⟨exists_next test_read_straddling, rfl, rfl, exists_next test_read_cached⟩

/-- A step from a state with the invariant, of each kind the statements about every step tell apart. -/
theorem witness_steps :
    (tState []).inv = true ∧ tCached.inv = true ∧ acmdPaired tCached.trace = true ∧
    (∃ t, step (tState []) = .next t) ∧ (∃ t, step ((tSd []).withFetchWord 8 3) = .next t) ∧
    decode ((tSd []).withFetchWord 8 3).port = .ok (.seek ⟨0, 0, 0⟩ 0, List.replicate 4 0) ∧
    (tState []).port = [] ∧ decode [0xFF] = .error .reservedOp :=
  ⟨by decide +kernel, by decide +kernel, by decide, exists_next test_step.1, exists_next test_step.2.1, by decide, rfl,
    by decide⟩

theorem witness_OnlyAcquireWritesTheSession :
    Instr.setBlocklen ≠ .acquire ∧ ∃ t, exec .setBlocklen (tSd [tFrame 0x110000090067]) = .next t :=
  ⟨by decide, exists_next test_setBlocklen⟩

end Sys2Proof.Tests
end

/-! SUPPORT. What an instruction can do to the state, said once: card commands, delays and the block's own writes. -/

namespace Sys2Proof.Proofs

open Sys2Proof.Machine Sys2Proof.Laws

/-! ### The block acting -/

/-- `t` is reached from `s` by card commands, delays and those writes of the block's own that `W` allows. -/
inductive Acts (W : State → State → Prop) (s : State) : State → Prop where
  | refl : Acts W s s
  | cmd {t u : State} {c : Cmd} {a : Word} {st : Status} (h : Acts W s t)
      (hx : executeCmd c a t = .ok (st, u)) : Acts W s u
  | delay {t : State} (n : Nat) (h : Acts W s t) : Acts W s (delayMs n t)
  | write {t u : State} (h : Acts W s t) (hw : W t u) : Acts W s u

namespace Acts

variable {W V : State → State → Prop} {s t u : State}

/-- A property that every command, every delay and every write keeps holds at the end. -/
theorem keeps {P : State → Prop} (h : Acts W s t)
    (cmd : ∀ {c a st t u}, P t → executeCmd c a t = .ok (st, u) → P u)
    (delay : ∀ {n t}, P t → P (delayMs n t)) (write : ∀ {t u}, P t → W t u → P u) (hs : P s) : P t := by
  induction h with
  | refl => exact hs
  | cmd _ hx ih => exact cmd ih hx
  | delay n _ ih => exact delay ih
  | write _ hw ih => exact write ih hw

theorem trans (h : Acts W s t) (k : Acts W t u) : Acts W s u :=
  k.keeps .cmd (.delay _) .write h

theorem mono (hWV : ∀ {t u}, W t u → V t u) (h : Acts W s t) : Acts V s t :=
  h.keeps .cmd (.delay _) (fun k hw => k.write (hWV hw)) .refl

/-- `op_cond(b, arg)` is one card command (R226). -/
theorem opCond {b : Branch} {a : Word} {st : Status} (h : Acts W s t) (hx : opCond b a t = .ok (st, u)) :
    Acts W s u := by
  cases b with
  | sd => exact h.cmd (c := .sdSendOpCond) hx
  | mmc => exact h.cmd (c := .sendOpCond) hx

end Acts

/-! ### Outside: the timer, the parameters and what has gone out -/

/-- A write inside the block: no time passes, nothing goes out, the parameters stay (R41). -/
structure SameOutside (s t : State) : Prop where
  nowMs : t.nowMs = s.nowMs
  cfg   : t.cfg = s.cfg
  trace : t.trace = s.trace

/-- The timer has not gone back, the parameters are the same, and the trace has only grown (R42, R41, R74). -/
structure Forward (s t : State) : Prop where
  nowMs : s.nowMs ≤ t.nowMs
  cfg   : t.cfg = s.cfg
  trace : s.trace <:+ t.trace

theorem Forward.refl (s : State) : Forward s s :=
  ⟨Nat.le_refl _, rfl, List.suffix_refl _⟩

theorem Forward.trans {s t u : State} (h : Forward s t) (k : Forward t u) : Forward s u :=
  ⟨h.nowMs.trans k.nowMs, k.cfg.trans h.cfg, h.trace.trans k.trace⟩

theorem SameOutside.forward {s t : State} (h : SameOutside s t) : Forward s t :=
  ⟨h.nowMs.ge, h.cfg, h.trace ▸ List.suffix_refl _⟩

theorem forward_advance (n : Nat) (s : State) : Forward s (s.advance n) :=
  ⟨by simp only [advance_nowMs]; omega, rfl, List.suffix_refl _⟩

theorem forward_delayMs (n : Nat) (s : State) : Forward s (delayMs n s) :=
  ⟨by simp only [delayMs_nowMs]; omega, rfl, List.suffix_cons _ _⟩

theorem suffix_selectClock (ls : Bool) (s : State) : s.trace <:+ (selectClock ls s).trace := by
  rcases trace_selectClock ls s with ⟨_, h⟩ | ⟨_, h, _⟩
  · rw [h]
  · exact ⟨[_, _], h.symm⟩

/-- A command adds its clock change and its frames on top of what had gone out (R191, R204 a). -/
theorem suffix_executeCmd {c : Cmd} {a : Word} {s t : State} {st : Status}
    (h : executeCmd c a s = .ok (st, t)) : s.trace <:+ t.trace := by
  have hclock := suffix_selectClock c.descriptor.ls { s with cd := ⟨c.descriptor, a⟩ }
  obtain ⟨m, -, ⟨-, ht⟩ | ⟨-, ht⟩ | ⟨-, m', -, ht⟩⟩ := trace_execute h
  · exact hclock.trans ⟨[_], ht.symm⟩
  · exact hclock.trans ⟨[_], ht.symm⟩
  · exact hclock.trans ⟨[_, _], ht.symm⟩

theorem forward_executeCmd {c : Cmd} {a : Word} {s t : State} {st : Status}
    (h : executeCmd c a s = .ok (st, t)) : Forward s t :=
  ⟨(executed_of_executeCmd h).time, (executed_of_executeCmd h).frame.cfg, suffix_executeCmd h⟩

theorem Acts.forward {s t : State} (h : Acts SameOutside s t) : Forward s t :=
  h.keeps (fun k hx => k.trans (forward_executeCmd hx)) (fun k => k.trans (forward_delayMs _ _))
    (fun k hw => k.trans hw.forward) (.refl s)

/-! ### What everything but ACQUIRE keeps -/

/-- What no instruction but ACQUIRE writes, and how far it writes the rest of what the invariant speaks of: the cache
base becomes the sentinel, or a block address with a card acquired (R264, R269); the bus becomes wide with an SD card
on a wide host only (R266). `rf_state` stands apart: a refill moves it. -/
structure Kept (s t : State) : Prop where
  session   : t.session = s.session
  acqState  : t.acqState = s.acqState
  acqResult : t.acqResult = s.acqResult
  cfg       : t.cfg = s.cfg
  st        : s.st = Flags.clear → t.st = Flags.clear
  clkRun    : s.clkRun = false → t.clkRun = false
  base      : t.cache.base = s.cache.base ∨ t.cache.base = Config.cacheInvalid ∨
    (s.session.acquired = true ∧ t.cache.base &&& 0x1FF#32 = 0#32)
  busWide   : t.busWide = s.busWide ∨ (s.session.sd = true ∧ s.cfg.hostWide = true)
  caller    : Memory.wf s.caller = true → Memory.wf t.caller = true

theorem Kept.refl (s : State) : Kept s s :=
  ⟨rfl, rfl, rfl, rfl, id, id, .inl rfl, .inl rfl, id⟩

theorem Kept.trans {s t u : State} (h : Kept s t) (k : Kept t u) : Kept s u where
  session := k.session.trans h.session
  acqState := k.acqState.trans h.acqState
  acqResult := k.acqResult.trans h.acqResult
  cfg := k.cfg.trans h.cfg
  st := k.st ∘ h.st
  clkRun := k.clkRun ∘ h.clkRun
  base := by
    rcases k.base with hb | hb | ⟨ha, hb⟩
    · rw [hb]
      exact h.base
    · exact .inr (.inl hb)
    · exact .inr (.inr ⟨h.session ▸ ha, hb⟩)
  busWide := by
    rcases k.busWide with hb | ⟨hsd, hw⟩
    · rw [hb]
      exact h.busWide
    · exact .inr ⟨h.session ▸ hsd, h.cfg ▸ hw⟩
  caller := k.caller ∘ h.caller

theorem kept_executeCmd {c : Cmd} {a : Word} {s t : State} {st : Status}
    (h : executeCmd c a s = .ok (st, t)) : Kept s t := by
  have e := executed_of_executeCmd h
  have f := e.frame
  refine ⟨f.session, f.acqState, f.acqResult, f.cfg, fun _ => e.flags, fun hr => ?_, .inl e.base, .inl f.busWide,
    fun hm => f.caller ▸ hm⟩
  rw [e.clkRun, hr, ite_self]

theorem kept_delayMs (n : Nat) (s : State) : Kept s (delayMs n s) :=
  ⟨rfl, rfl, rfl, rfl, id, id, .inl rfl, .inl rfl, id⟩

theorem kept_takeRequest (rest : List Byte) (s : State) : Kept s (takeRequest rest s) :=
  ⟨rfl, rfl, rfl, rfl, id, id, .inl rfl, .inl rfl, id⟩

/-- A write by an instruction other than ACQUIRE. -/
structure HostWrite (s t : State) : Prop where
  outside : SameOutside s t
  kept    : Kept s t

theorem Acts.kept {s t : State} (h : Acts HostWrite s t) : Kept s t :=
  h.keeps (fun k hx => k.trans (kept_executeCmd hx)) (fun k => k.trans (kept_delayMs _ _))
    (fun k hw => k.trans hw.kept) (.refl s)

/-! The writes there are. -/

theorem hostWrite_rfState (r : RfState) (s : State) : HostWrite s { s with rfState := r } :=
  ⟨⟨rfl, rfl, rfl⟩, rfl, rfl, rfl, rfl, id, id, .inl rfl, .inl rfl, id⟩

theorem hostWrite_result (r : Result) (s : State) : HostWrite s { s with result := r } :=
  ⟨⟨rfl, rfl, rfl⟩, rfl, rfl, rfl, rfl, id, id, .inl rfl, .inl rfl, id⟩

theorem hostWrite_seek (r : Result) (d : Desc) (s : State) : HostWrite s { s with result := r, desc := d } :=
  ⟨⟨rfl, rfl, rfl⟩, rfl, rfl, rfl, rfl, id, id, .inl rfl, .inl rfl, id⟩

theorem hostWrite_readEnd (d : Desc) (n : Nat) (st : Status) (s : State) : HostWrite s (readEnd d n st s) :=
  hostWrite_seek _ _ s

theorem hostWrite_cacheInvalidate (s : State) : HostWrite s (cacheInvalidate s) :=
  ⟨⟨rfl, rfl, rfl⟩, rfl, rfl, rfl, rfl, id, id, .inr (.inl rfl), .inl rfl, id⟩

theorem hostWrite_busWide {s : State} (hsd : s.session.sd = true) (hw : s.cfg.hostWide = true) :
    HostWrite s { s with busWide := true } :=
  ⟨⟨rfl, rfl, rfl⟩, rfl, rfl, rfl, rfl, id, id, .inl rfl, .inr ⟨hsd, hw⟩, id⟩

/-- The masked bits of a block base are 0 (R67). -/
theorem blockBase_aligned (a : Word) : blockBase a &&& 0x1FF#32 = 0#32 := by
  rw [blockBase, BitVec.and_assoc, show 0xFFFFFE00#32 &&& 0x1FF#32 = 0#32 from rfl, BitVec.and_zero]

theorem hostWrite_cacheFill {s : State} (a : Word) (h : s.session.acquired = true) :
    HostWrite s (cacheFill (blockBase a) s) :=
  ⟨⟨rfl, rfl, rfl⟩, rfl, rfl, rfl, rfl, id, id, .inr (.inr ⟨h, blockBase_aligned a⟩), .inl rfl, id⟩

theorem hostWrite_copyOut (a : Word) (done k : Nat) (s : State) : HostWrite s (copyOut a done k s) :=
  ⟨⟨rfl, rfl, rfl⟩, rfl, rfl, rfl, rfl, id, id, .inl rfl, .inl rfl, memory_wf_setAll _ _⟩

/-! ### READ -/

theorem acts_refillDeselect {s t : State} (h : refillDeselect s = .ok t) : Acts HostWrite s t := by
  unfold refillDeselect at h
  split at h
  · cases h
  · next hx =>
    cases h
    exact (Acts.refl.write (hostWrite_rfState _ s)).cmd hx

theorem acts_refillBusWidth {s t : State} {st : Status} (h : refillBusWidth s = .ok (st, t)) :
    Acts HostWrite s t := by
  have hrf := Acts.refl.write (hostWrite_rfState .busWidth s)
  unfold refillBusWidth at h
  dsimp only at h
  split at h
  · next hwide =>
    obtain ⟨hsd, hw⟩ := Bool.and_eq_true_iff.mp hwide
    split at h
    · cases h
    · next st' u hx =>
      have hu := (executed_of_executeCmd hx).frame
      cases h
      split
      · exact (hrf.cmd hx).write (hostWrite_busWide (hu.session ▸ hsd) (hu.cfg ▸ hw))
      · exact hrf.cmd hx
  · cases h
    exact hrf

/-- A completed refill with a card acquired, whatever its status (R264 to R269). -/
theorem acts_refill {a : Word} {s t : State} {st : Status} (hacq : s.session.acquired = true)
    (h : refill a s = .ok (st, t)) : Acts HostWrite s t ∧ t.rfState = .idle := by
  have stop : ∀ {u : State}, Acts HostWrite s u → Acts HostWrite s { u with rfState := .idle } :=
    fun hu => hu.write (hostWrite_rfState _ _)
  unfold refill at h
  split at h
  · cases h
  next u0 h0 =>
  have a0 := (Acts.refl.write (hostWrite_cacheInvalidate s)).trans (acts_refillDeselect h0)
  obtain ⟨_, u1, h1, ⟨-, h⟩ | ⟨-, -, rfl⟩⟩ := refillThen_cases h
  case inr => exact ⟨stop ((a0.write (hostWrite_rfState .select _)).cmd h1), rfl⟩
  have a1 := (a0.write (hostWrite_rfState .select _)).cmd h1
  obtain ⟨_, u2, h2, ⟨-, h⟩ | ⟨-, -, rfl⟩⟩ := refillThen_cases h
  case inr => exact ⟨stop (a1.trans (acts_refillBusWidth h2)), rfl⟩
  have a2 := a1.trans (acts_refillBusWidth h2)
  obtain ⟨_, u3, h3, ⟨-, h⟩ | ⟨-, -, rfl⟩⟩ := refillThen_cases h
  case inr => exact ⟨stop ((a2.write (hostWrite_rfState .blockLen _)).cmd h3), rfl⟩
  have a3 := (a2.write (hostWrite_rfState .blockLen _)).cmd h3
  obtain ⟨_, u4, h4, ⟨-, h⟩ | ⟨-, -, rfl⟩⟩ := refillThen_cases h
  case inr => exact ⟨stop ((a3.write (hostWrite_rfState .read _)).cmd h4), rfl⟩
  have a4 := (a3.write (hostWrite_rfState .read _)).cmd h4
  cases h
  exact ⟨stop (a4.write (hostWrite_cacheFill a (a4.kept.session ▸ hacq))), rfl⟩

theorem acts_ensureWindow {a : Word} {s t : State} {st : Status} (hacq : s.session.acquired = true)
    (hrf : s.rfState = .idle) (h : ensureWindow a s = .ok (st, t)) :
    Acts HostWrite s t ∧ t.rfState = .idle := by
  unfold ensureWindow at h
  split at h
  · cases h
    exact ⟨.refl, hrf⟩
  · exact acts_refill hacq h

theorem acts_readTurns {d : Desc} {n turns count : Nat} {s t : State} {st : Status}
    (hacq : s.session.acquired = true) (hrf : s.rfState = .idle)
    (h : readTurns d n turns 0 s = .ok ((count, st), t)) : Acts HostWrite s t ∧ t.rfState = .idle := by
  have window : ∀ {a u v st}, Acts HostWrite s u ∧ u.rfState = .idle → ensureWindow a u = .ok (st, v) →
      Acts HostWrite s v ∧ v.rfState = .idle := fun ⟨hu, hur⟩ hx =>
    have ⟨hv, hvr⟩ := acts_ensureWindow (hu.kept.session ▸ hacq) hur hx
    ⟨hu.trans hv, hvr⟩
  refine readTurns_keeps (P := fun _ u => Acts HostWrite s u ∧ u.rfState = .idle) ?_ ?_ turns 0 ⟨.refl, hrf⟩ h
  · intro done u v hu _ hx
    exact ⟨(window hu hx).1.write (hostWrite_copyOut _ _ _ _), (window hu hx).2⟩
  · intro done u v st hu _ hx _
    exact window hu hx

/-- An instruction other than ACQUIRE runs card commands and writes of its own, and leaves the refill sequencer where it
was. -/
def HostActs (s t : State) : Prop := Acts HostWrite s t ∧ t.rfState = s.rfState

theorem hostActs_execRead {d : Desc} {bufSize length : Word} {s t : State}
    (h : execRead d bufSize length s = .next t) : HostActs s t := by
  unfold execRead at h
  split at h
  case isFalse => cases h
  next hbetween =>
  have hrf : s.rfState = .idle := of_decide_eq_true (Bool.and_eq_true_iff.mp hbetween).2
  split at h
  case isFalse => cases h
  split at h
  case isFalse => cases h
  split at h
  · next hacq =>
    split at h
    · cases h
    · next hx =>
      obtain ⟨ha, hr⟩ := acts_readTurns hacq hrf hx
      cases h
      exact ⟨ha.write (hostWrite_readEnd _ _ _ _), hr.trans hrf.symm⟩
  · cases h
    exact ⟨Acts.refl.write (hostWrite_readEnd _ _ _ _), rfl⟩

/-! ### OPEN, SEEK and the card commands -/

theorem hostActs_execOpen {d : Desc} {s t : State} (h : execOpen d s = .next t) : HostActs s t := by
  unfold execOpen at h
  split at h
  case isFalse => cases h
  split at h
  case isFalse => cases h
  cases h
  exact ⟨Acts.refl.write (hostWrite_result _ s), rfl⟩

theorem hostActs_execSeek {d : Desc} {pos : Word} {s t : State} (h : execSeek d pos s = .next t) :
    HostActs s t := by
  unfold execSeek at h
  split at h
  case isFalse => cases h
  split at h
  case isFalse => cases h
  cases h
  exact ⟨Acts.refl.write (hostWrite_seek _ _ s), rfl⟩

theorem hostActs_readIntoCache {a : Word} {s t : State} {st : Status} (h : readIntoCache a s = .ok (st, t)) :
    HostActs s t := by
  obtain ⟨u, hx, -, hend⟩ := readIntoCache_cases h
  have hu : Acts HostWrite s u := (Acts.refl.write (hostWrite_cacheInvalidate s)).cmd hx
  have hr : u.rfState = s.rfState := (executed_of_executeCmd hx).frame.rfState
  rcases hend with ⟨-, hacq, halign, rfl⟩ | ⟨-, rfl⟩
  · exact ⟨halign ▸ hu.write (hostWrite_cacheFill a (hu.kept.session ▸ hacq)), hr⟩
  · exact ⟨hu, hr⟩

/-- A card command is `execute` of its row (R161 to R175), READ_SINGLE_BLOCK with the cache's care. -/
theorem exec_of_cmdOf {i : Instr} {c : Cmd} {a : Word} (h : cmdOf i = some (c, a)) (s : State) :
    exec i s = deliver .status (if c = .readSingleBlock then readIntoCache a s else executeCmd c a s) := by
  cases i <;> cases h <;> rfl

theorem hostActs_command {i : Instr} {c : Cmd} {a : Word} {s t : State} (hi : cmdOf i = some (c, a))
    (h : exec i s = .next t) : HostActs s t := by
  rw [exec_of_cmdOf hi] at h
  obtain ⟨st, u, hx, rfl⟩ := deliver_next h
  have hu : HostActs s u := by
    split at hx
    · exact hostActs_readIntoCache hx
    · exact ⟨Acts.refl.cmd hx, (executed_of_executeCmd hx).frame.rfState⟩
  exact ⟨hu.1.write (hostWrite_result _ u), hu.2⟩

theorem hostActs_exec {i : Instr} {s t : State} (hi : i ≠ .acquire) (h : exec i s = .next t) : HostActs s t := by
  cases hc : cmdOf i with
  | some ca => exact hostActs_command hc h
  | none =>
    cases i
    case acquire => exact absurd rfl hi
    case openDesc d => exact hostActs_execOpen h
    case read d bufSize length => exact hostActs_execRead h
    case seek d pos => exact hostActs_execSeek h
    all_goals cases hc

/-! ### ACQUIRE -/

/-- The block between operations with no card acquired, as every rule of a running acquisition has it: at rest but for
`acq_state`, bus narrow, cache empty, the caller's buffer canonical. -/
structure Quiet (s : State) : Prop where
  acquired : s.session.acquired = false
  busWide  : s.busWide = false
  base     : s.cache.base = Config.cacheInvalid
  st       : s.st = Flags.clear
  clkRun   : s.clkRun = false
  rfState  : s.rfState = .idle
  caller   : Memory.wf s.caller = true

/-- A write of the acquisition before it marks the session acquired. -/
structure AcqWrite (s t : State) : Prop where
  outside : SameOutside s t
  quiet   : Quiet s → Quiet t

theorem quiet_executeCmd {c : Cmd} {a : Word} {s t : State} {st : Status} (h : executeCmd c a s = .ok (st, t))
    (hs : Quiet s) : Quiet t := by
  have e := executed_of_executeCmd h
  have f := e.frame
  refine ⟨f.session ▸ hs.acquired, f.busWide ▸ hs.busWide, e.base ▸ hs.base, e.flags, ?_, f.rfState ▸ hs.rfState,
    f.caller ▸ hs.caller⟩
  rw [e.clkRun, hs.clkRun, ite_self]

theorem Acts.quiet {s t : State} (h : Acts AcqWrite s t) (hs : Quiet s) : Quiet t :=
  h.keeps (fun k hx => quiet_executeCmd hx k) (fun ⟨a, b, c, d, e, f, g⟩ => ⟨a, b, c, d, e, f, g⟩)
    (fun k hw => hw.quiet k) hs

/-- The sequencer's own registers: `acq_state` (R33), the working registers and the marks (R35). -/
theorem acqWrite_registers (a : AcqState) (n t0 : Nat) (o m : Word) (sdOut mmcOut : Bool) (s : State) :
    AcqWrite s { s with acqState := a, tries := n, ocr := o, negArg := m, negT0 := t0,
                        sdTimedOut := sdOut, mmcTimedOut := mmcOut } :=
  ⟨⟨rfl, rfl, rfl⟩, fun ⟨a, b, c, d, e, f, g⟩ => ⟨a, b, c, d, e, f, g⟩⟩

theorem acqWrite_session {x : Session} {s : State} (h : x.acquired = s.session.acquired) :
    AcqWrite s { s with session := x } :=
  ⟨⟨rfl, rfl, rfl⟩, fun ⟨a, b, c, d, e, f, g⟩ => ⟨h.trans a, b, c, d, e, f, g⟩⟩

theorem acqWrite_sessionClear (s : State) : AcqWrite s (sessionClear s) :=
  ⟨⟨rfl, rfl, rfl⟩, fun ⟨_, _, _, d, e, f, g⟩ => ⟨rfl, rfl, rfl, d, e, f, g⟩⟩

/-- The last rule of either branch (R235, R236, R245, R246): the CSD is stored and parsed, the session is acquired. -/
def identified (sd : Bool) (s : State) : State :=
  let u := finishParse { s with session := { s.session with csd := val128 s.rb } }
  { u with session := { u.session with sd := sd || u.session.sd }, acqState := .done }

theorem sameOutside_identified (sd : Bool) (s : State) : SameOutside s (identified sd s) :=
  ⟨rfl, rfl, rfl⟩

/-- A rule ran to one of these states, with no card acquired yet. -/
def Edge (next : List AcqState) (s t : State) : Prop := Acts AcqWrite s t ∧ t.acqState ∈ next

theorem edge_set {next : List AcqState} {a : AcqState} {s t : State} (h : Acts AcqWrite s t) (ha : a ∈ next) :
    Edge next s { t with acqState := a } :=
  ⟨h.write (acqWrite_registers a _ _ _ _ _ _ t), ha⟩

theorem edge_acqReset {s t : State} (h : acqReset s = .ok t) : Edge [.trySdOpCond] s t := by
  unfold acqReset at h
  split at h
  · cases h
  next hx =>
  split at h
  · split at h
    · cases h
    · next hy =>
      cases h
      exact edge_set ((Acts.refl.cmd hx).cmd hy) (by decide)
  · cases h
    exact edge_set (Acts.refl.cmd hx) (by decide)

theorem edge_acqTrySd {s t : State} (h : acqTrySd s = .ok t) :
    Edge [.checkSdOcr, .tryMmcOpCond, .failed] s t := by
  unfold acqTrySd at h
  split at h
  · cases h
  next u hx =>
  have hu : Acts AcqWrite s u := Acts.refl.opCond hx
  split at h
  · cases h
    exact ⟨hu.write (acqWrite_registers _ _ _ _ _ _ _ u), by simp⟩
  · split at h
    · cases h
      exact edge_set ((hu.write (acqWrite_registers u.acqState _ _ _ _ true _ u)).write (acqWrite_sessionClear _))
        (by decide)
    · cases h
      exact edge_set hu (by decide)

theorem edge_acqTryMmc {s t : State} (h : acqTryMmc s = .ok t) : Edge [.checkMmcOcr, .failed] s t := by
  unfold acqTryMmc at h
  split at h
  · cases h
  next u hx =>
  have hu : Acts AcqWrite s u := Acts.refl.opCond hx
  split at h
  · cases h
    exact ⟨hu.write (acqWrite_registers _ _ _ _ _ _ _ u), by simp⟩
  · split at h
    · cases h
      exact ⟨hu.write (acqWrite_registers _ _ _ _ _ _ _ u), by simp⟩
    · cases h
      exact edge_set hu (by decide)

theorem edge_acqCheck (negotiate poll : AcqState) (s : State) :
    Edge [negotiate, poll] s (acqCheck negotiate poll s) :=
  edge_set .refl (by cases ocrReady s.ocr <;> simp)

theorem acts_pollTry {b : Branch} {s t u : State} {e : TryEnd} (hs : Acts AcqWrite s t)
    (h : pollTry b t = .ok (e, u)) : Acts AcqWrite s u := by
  obtain ⟨st, v, hx, ⟨-, rfl, -⟩ | ⟨-, rfl, -⟩⟩ := pollTry_cases h
  · exact ((hs.delay _).opCond hx).write (acqWrite_registers _ _ _ _ _ _ _ v)
  · exact ((hs.delay _).opCond hx).write (acqWrite_registers _ _ _ _ _ _ _ v)

/-- How one try of the negotiation came about (R228): the command, then success, or the look at the ceilings. -/
theorem negTry_cases {b : Branch} {s t : State} {e : TryEnd} (h : negTry b s = .ok (e, t)) :
    ∃ st u, opCond b s.negArg s = .ok (st, u) ∧
      ((st = .ok ∧ e = .success ∧ ocrReady (decodeOcr u.rb) = true ∧ ∃ ms : Word,
          t = { u with tries := u.tries + 1, ocr := decodeOcr u.rb,
                       session := { u.session with acquireTimeMs := ms } }) ∨
       (e = (if negCeiling t then .failure else .again) ∧
          t = { u with tries := u.tries + 1, ocr := if st = .ok then decodeOcr u.rb else u.ocr })) := by
  unfold negTry at h
  split at h
  · cases h
  next st u hx =>
  refine ⟨st, u, hx, ?_⟩
  by_cases hst : st = .ok
  · simp only [hst, if_true, true_and] at h ⊢
    split at h
    · next hready =>
      cases h
      exact .inl ⟨rfl, hready, _, rfl⟩
    · cases h
      exact .inr ⟨rfl, rfl⟩
  · simp only [hst, if_false, false_and] at h ⊢
    cases h
    exact .inr ⟨rfl, rfl⟩

theorem acts_negTry {b : Branch} {s t u : State} {e : TryEnd} (hs : Acts AcqWrite s t)
    (h : negTry b t = .ok (e, u)) : Acts AcqWrite s u := by
  obtain ⟨st, v, hx, ⟨-, -, -, ms, rfl⟩ | ⟨-, rfl⟩⟩ := negTry_cases h
  · have hms : AcqWrite v { v with session := { v.session with acquireTimeMs := ms } } := acqWrite_session rfl
    exact ((hs.opCond hx).write hms).write (acqWrite_registers _ _ _ _ _ _ _ _)
  · exact (hs.opCond hx).write (acqWrite_registers _ _ _ _ _ _ _ v)

theorem edge_afterLoop {next : AcqState} {r : Res Bool} {s t : State}
    (hr : ∀ {ok u}, r = .ok (ok, u) → Acts AcqWrite s u) (h : afterLoop next r = .ok t) :
    Edge [next, .failed] s t := by
  obtain ⟨ok, u, hx, rfl⟩ := afterLoop_cases h
  exact edge_set (hr hx) (by cases ok <;> simp)

theorem acts_pollLoop {b : Branch} {s t : State} {ok : Bool} (h : pollLoop b s = .ok (ok, t)) :
    Acts AcqWrite s t :=
  pollTurns_keeps (fun _ _ _ => acts_pollTry) _ (Acts.refl.write (acqWrite_registers _ _ _ _ _ _ _ s)) h

theorem acts_negotiateLoop {b : Branch} {s t : State} {ok : Bool} (h : negotiateLoop b s = .ok (ok, t)) :
    Acts AcqWrite s t :=
  negTurns_keeps (fun _ _ _ => acts_negTry) (fun _ => .delay _) _
    (Acts.refl.write (acqWrite_registers _ _ _ _ _ _ _ s)) h

/-- `required` (R230) with a continuation that writes a field of the session and goes to `next`. -/
theorem edge_required {c : Cmd} {a : Word} {next : AcqState} {x : State → Session} {s t : State}
    (h : required c a (fun u => { u with session := x u, acqState := next }) s = .ok t)
    (hx : ∀ u, (x u).acquired = u.session.acquired) :
    Edge [next, .failed] s t := by
  obtain ⟨st, u, hu, ⟨-, rfl⟩ | ⟨-, rfl⟩⟩ := required_cases h
  · exact edge_set ((Acts.refl.cmd hu).write (acqWrite_session (hx u))) (by simp)
  · exact edge_set (Acts.refl.cmd hu) (by simp)

theorem acqGetCsd_cases {sd : Bool} {s t : State} (h : acqGetCsd sd s = .ok t) :
    Edge [.failed] s t ∨ ∃ u, Acts AcqWrite s u ∧ t = identified sd u := by
  obtain ⟨st, u, hu, ⟨-, rfl⟩ | ⟨-, rfl⟩⟩ := required_cases h
  · exact .inr ⟨u, .cmd .refl hu, rfl⟩
  · exact .inl (edge_set (Acts.refl.cmd hu) (by simp))

/-- The most rules that can run from a state of `acq_state` to a terminal one (R249). `Idle` has no rule and none leads
to it: it stands above the others. -/
def rulesLeft : AcqState → Nat
  | .idle => 10
  | .reset => 9
  | .trySdOpCond => 8
  | .tryMmcOpCond => 7
  | .checkSdOcr | .checkMmcOcr => 6
  | .pollSdOcr | .pollMmcOcr => 5
  | .negotiateSdOcr | .negotiateMmcOcr => 4
  | .getCidSd | .getCidMmc => 3
  | .getRcaSd | .setRcaMmc => 2
  | .getCsdSd | .getCsdMmc => 1
  | .done | .failed => 0

theorem terminal_of_rulesLeft_eq_zero {a : AcqState} (h : rulesLeft a = 0) : a.terminal = true := by
  revert h
  cases a <;> decide

theorem rulesLeft_le_idle (a : AcqState) : rulesLeft a ≤ rulesLeft .idle := by
  cases a <;> decide

/-- A rule ran, towards the end: no card is acquired yet, or the last rule acquired it. -/
structure Advances (s t : State) : Prop where
  reached : (Acts AcqWrite s t ∧ t.acqState ≠ .done) ∨ ∃ sd u, Acts AcqWrite s u ∧ t = identified sd u
  fewer   : rulesLeft t.acqState < rulesLeft s.acqState

theorem Edge.advances {next : List AcqState} {a : AcqState} {s t : State} (e : Edge next s t)
    (hs : s.acqState = a) (hn : ∀ b ∈ next, b ≠ .done ∧ rulesLeft b < rulesLeft a) : Advances s t :=
  ⟨.inl ⟨e.1, (hn _ e.2).1⟩, hs ▸ (hn _ e.2).2⟩

theorem advances_acqGetCsd {sd : Bool} {a : AcqState} {s t : State} (h : acqGetCsd sd s = .ok t)
    (hs : s.acqState = a) (ha : rulesLeft a = 1) : Advances s t := by
  rcases acqGetCsd_cases h with e | ⟨u, hu, rfl⟩
  · exact e.advances hs (by rw [ha]; decide)
  · refine ⟨.inr ⟨sd, u, hu, rfl⟩, ?_⟩
    rw [hs, ha]
    exact Nat.one_pos

/-- Every rule of a running acquisition advances it (R249). -/
theorem acqStep_advances {s t : State} (hidle : s.acqState ≠ .idle) (hterm : s.acqState.terminal = false)
    (h : acqStep s = .ok t) : Advances s t := by
  unfold acqStep at h
  revert h
  cases hs : s.acqState with
  | idle => exact absurd hs hidle
  | reset => exact fun h => (edge_acqReset h).advances hs (by decide)
  | trySdOpCond => exact fun h => (edge_acqTrySd h).advances hs (by decide)
  | checkSdOcr => exact fun h => (Except.ok.inj h ▸ edge_acqCheck _ _ s).advances hs (by decide)
  | pollSdOcr => exact fun h => (edge_afterLoop acts_pollLoop h).advances hs (by decide)
  | negotiateSdOcr => exact fun h => (edge_afterLoop acts_negotiateLoop h).advances hs (by decide)
  | getCidSd => exact fun h => (edge_required h fun _ => rfl).advances hs (by decide)
  | getRcaSd => exact fun h => (edge_required h fun _ => rfl).advances hs (by decide)
  | getCsdSd => exact fun h => advances_acqGetCsd h hs rfl
  | tryMmcOpCond => exact fun h => (edge_acqTryMmc h).advances hs (by decide)
  | checkMmcOcr => exact fun h => (Except.ok.inj h ▸ edge_acqCheck _ _ s).advances hs (by decide)
  | pollMmcOcr => exact fun h => (edge_afterLoop acts_pollLoop h).advances hs (by decide)
  | negotiateMmcOcr => exact fun h => (edge_afterLoop acts_negotiateLoop h).advances hs (by decide)
  | getCidMmc => exact fun h => (edge_required h fun _ => rfl).advances hs (by decide)
  | setRcaMmc => exact fun h => (edge_required h fun _ => rfl).advances hs (by decide)
  | getCsdMmc => exact fun h => advances_acqGetCsd h hs rfl
  | done => rw [hs] at hterm; cases hterm
  | failed => rw [hs] at hterm; cases hterm

/-- A state outside a running acquisition has no rule. -/
theorem acqStep_outside {s t : State} (hout : s.acqState = .idle ∨ s.acqState.terminal = true)
    (h : acqStep s = .ok t) : t = s := by
  have hstates : s.acqState = .idle ∨ s.acqState = .done ∨ s.acqState = .failed := by
    simpa [AcqState.terminal] using hout
  rcases hstates with hs | hs | hs <;>
  · simp only [acqStep, hs] at h
    exact (Except.ok.inj h).symm

/-- Enough fuel runs an acquisition to a terminal state (R220). -/
theorem acqRun_terminal : ∀ (n : Nat) {s t : State}, s.acqState ≠ .idle → rulesLeft s.acqState ≤ n →
    acqRun n s = .ok t → t.acqState.terminal = true
  | 0, _, _, _, hn, h => by
    cases h
    exact terminal_of_rulesLeft_eq_zero (Nat.le_zero.mp hn)
  | n + 1, s, t, hidle, hn, h => by
    unfold acqRun at h
    split at h
    · cases h
      assumption
    · next hterm =>
      split at h
      · cases h
      · next u hx =>
        have hfewer := (acqStep_advances hidle (by simpa using hterm) hx).fewer
        have hidle' : u.acqState ≠ .idle := fun hu =>
          absurd (rulesLeft_le_idle s.acqState) (Nat.not_le.mpr (hu ▸ hfewer))
        exact acqRun_terminal n hidle' (by omega) h

/-- A running acquisition: no card acquired yet, or the last rule has just acquired it. -/
def Acquiring (s : State) : Prop :=
  (Quiet s ∧ s.acqState ≠ .done) ∨ ∃ sd u, Quiet u ∧ s = identified sd u

theorem acquiring_acqStep {s t : State} (hs : Acquiring s) (h : acqStep s = .ok t) : Acquiring t := by
  by_cases hout : s.acqState = .idle ∨ s.acqState.terminal = true
  · exact acqStep_outside hout h ▸ hs
  obtain ⟨hidle, hterm⟩ := not_or.mp hout
  rcases hs with ⟨hq, -⟩ | ⟨sd, u, -, rfl⟩
  · rcases (acqStep_advances hidle (by simpa using hterm) h).reached with ⟨ha, hd⟩ | ⟨sd, u, ha, rfl⟩
    · exact .inl ⟨ha.quiet hq, hd⟩
    · exact .inr ⟨sd, u, ha.quiet hq, rfl⟩
  · exact absurd rfl hterm

/-- How a completed ACQUIRE came about (R220). -/
theorem execAcquire_cases {s t : State} (h : execAcquire s = .next t) :
    s.between = true ∧ ∃ u, acqRun acqFuel (acqStart s) = .ok u ∧
      t = { acqEnd u with result := .acquired (acqEnd u).session.acquired } := by
  unfold execAcquire at h
  split at h
  · next hb =>
    split at h
    · cases h
    · next u hx =>
      cases h
      exact ⟨hb, u, hx, rfl⟩
  · cases h

/-! ### Outside, over every instruction -/

theorem acts_acqStep {s t : State} (h : acqStep s = .ok t) : Acts SameOutside s t := by
  by_cases hout : s.acqState = .idle ∨ s.acqState.terminal = true
  · exact acqStep_outside hout h ▸ .refl
  obtain ⟨hidle, hterm⟩ := not_or.mp hout
  rcases (acqStep_advances hidle (by simpa using hterm) h).reached with ⟨ha, -⟩ | ⟨sd, u, ha, rfl⟩
  · exact ha.mono AcqWrite.outside
  · exact (ha.mono AcqWrite.outside).write (sameOutside_identified sd u)

theorem sameOutside_acqEnd (s : State) : SameOutside s (acqEnd s) := by
  unfold acqEnd
  split <;> exact ⟨rfl, rfl, rfl⟩

theorem acts_execAcquire {s t : State} (h : execAcquire s = .next t) : Acts SameOutside s t := by
  obtain ⟨-, u, hrun, rfl⟩ := execAcquire_cases h
  have hstart : Acts SameOutside s (acqStart s) := Acts.refl.write ⟨rfl, rfl, rfl⟩
  have hu : Acts SameOutside s u := acqRun_keeps (fun _ _ k hx => k.trans (acts_acqStep hx)) _ hstart hrun
  exact (hu.write (sameOutside_acqEnd u)).write ⟨rfl, rfl, rfl⟩

/-- Every instruction acts on the outside through card commands and delays only. -/
theorem acts_exec {i : Instr} {s t : State} (h : exec i s = .next t) : Acts SameOutside s t := by
  by_cases hi : i = .acquire
  · subst hi
    exact acts_execAcquire h
  · exact (hostActs_exec hi h).1.mono HostWrite.outside

/-- What a completed step did: only time passed, or the request at the port ran. -/
theorem step_cases {s t : State} (h : step s = .next t) :
    t = s.advance 0 ∨ ∃ i rest, exec i (takeRequest rest s) = .next t := by
  unfold step at h
  split at h
  · cases h
    exact .inl rfl
  · exact .inr ⟨_, _, h⟩
  · cases h

theorem forward_takeRequest (rest : List Byte) (s : State) : Forward s (takeRequest rest s) :=
  (forward_advance 0 s).trans (SameOutside.forward ⟨rfl, rfl, rfl⟩)

theorem forward_step {s t : State} (h : step s = .next t) : Forward s t := by
  rcases step_cases h with rfl | ⟨i, rest, hx⟩
  · exact forward_advance 0 s
  · exact (forward_takeRequest rest s).trans (acts_exec hx).forward

/-! ### The invariant -/

/-- The invariant clause by clause. -/
theorem inv_iff (s : State) : s.inv = true ↔
    cacheAligned s = true ∧ clearedUnlessAcquired s = true ∧ parsedWhenAcquired s = true ∧ atRest s = true ∧
      acqConsistent s = true ∧ wideOnlySd s = true ∧ Memory.wf s.caller = true := by
  simp only [State.inv, Bool.and_eq_true, and_assoc]

theorem atRest_iff (s : State) : atRest s = true ↔ s.st = Flags.clear ∧ s.clkRun = false ∧ s.between = true := by
  simp only [atRest, Bool.and_eq_true, decide_eq_true_eq, Bool.not_eq_true', and_assoc]

section kept
variable {s t : State}

theorem Kept.cacheAligned (k : Kept s t) (h : cacheAligned s = true) : cacheAligned t = true := by
  simp only [Machine.cacheAligned, Bool.or_eq_true, decide_eq_true_eq] at h ⊢
  rcases k.base with hb | hb | ⟨-, hb⟩
  · rw [hb]
    exact h
  · exact .inl hb
  · exact .inr hb

theorem Kept.clearedUnlessAcquired (k : Kept s t) (h : clearedUnlessAcquired s = true) :
    clearedUnlessAcquired t = true := by
  simp only [Machine.clearedUnlessAcquired, Bool.or_eq_true, Bool.and_eq_true, decide_eq_true_eq,
    Bool.not_eq_true', k.session] at h ⊢
  refine h.imp_right fun ⟨⟨hz, hw⟩, hb⟩ => ⟨⟨hz, ?_⟩, ?_⟩
  · rcases k.busWide with hk | ⟨hsd, -⟩
    · rw [hk, hw]
    · rw [hz] at hsd
      cases hsd
  · rcases k.base with hk | hk | ⟨hacq, -⟩
    · rw [hk, hb]
    · exact hk
    · rw [hz] at hacq
      cases hacq

theorem Kept.parsedWhenAcquired (k : Kept s t) : parsedWhenAcquired t = parsedWhenAcquired s := by
  simp only [Machine.parsedWhenAcquired, k.session]

theorem Kept.acqConsistent (k : Kept s t) : acqConsistent t = acqConsistent s := by
  simp only [Machine.acqConsistent, k.session, k.acqState, k.acqResult]

theorem Kept.atRest (k : Kept s t) (hr : t.rfState = s.rfState) (h : atRest s = true) : atRest t = true := by
  obtain ⟨hst, hclk, hb⟩ := (atRest_iff s).mp h
  refine (atRest_iff t).mpr ⟨k.st hst, k.clkRun hclk, ?_⟩
  rwa [State.between, k.acqState, hr]

theorem Kept.wideOnlySd (k : Kept s t) (h : wideOnlySd s = true) : wideOnlySd t = true := by
  simp only [Machine.wideOnlySd, Bool.or_eq_true, Bool.not_eq_true', Bool.and_eq_true, k.session, k.cfg] at h ⊢
  rcases k.busWide with hb | hb
  · rw [hb]
    exact h
  · exact .inr hb

theorem Kept.inv (k : Kept s t) (hr : t.rfState = s.rfState) (h : s.inv = true) : t.inv = true := by
  obtain ⟨hal, hcl, hpa, hrest, hacq, hwide, hmem⟩ := (inv_iff s).mp h
  exact (inv_iff t).mpr ⟨k.cacheAligned hal, k.clearedUnlessAcquired hcl, k.parsedWhenAcquired ▸ hpa,
    k.atRest hr hrest, k.acqConsistent ▸ hacq, k.wideOnlySd hwide, k.caller hmem⟩

end kept

/-! The capacity fits its registers (R138). -/

theorem csdBlockLen_le (csd : Reg128) : csdBlockLen csd ≤ 2 ^ 15 :=
  Nat.pow_le_pow_right (by decide) (Nat.le_of_lt_succ (Nat.mod_lt _ (by decide)))

theorem csdBlockCount_le (csd : Reg128) : csdBlockCount csd ≤ 2 ^ 21 := by
  have hsize : csdCSize csd + 1 ≤ 2 ^ 12 := Nat.mod_lt _ (by decide)
  have hmult : csdCSizeMult csd + 2 ≤ 9 :=
    Nat.add_le_add_right (Nat.le_of_lt_succ (Nat.mod_lt _ (by decide))) 2
  calc csdBlockCount csd = (csdCSize csd + 1) * 2 ^ (csdCSizeMult csd + 2) := rfl
    _ ≤ 2 ^ 12 * 2 ^ 9 := Nat.mul_le_mul hsize (Nat.pow_le_pow_right (by decide) hmult)
    _ = 2 ^ 21 := by norm_num

theorem csdDeviceSize_le (csd : Reg128) : csdDeviceSize csd ≤ 2 ^ 36 :=
  calc csdDeviceSize csd = csdBlockCount csd * csdBlockLen csd := rfl
    _ ≤ 2 ^ 21 * 2 ^ 15 := Nat.mul_le_mul (csdBlockCount_le csd) (csdBlockLen_le csd)
    _ = 2 ^ 36 := by norm_num

theorem parsedWhenAcquired_identified (sd : Bool) (s : State) : parsedWhenAcquired (identified sd s) = true := by
  have hlen := csdBlockLen_le (val128 s.rb)
  have hcount := csdBlockCount_le (val128 s.rb)
  have hsize := csdDeviceSize_le (val128 s.rb)
  simp only [parsedWhenAcquired, identified, finishParse, BitVec.toNat_ofNat, Bool.or_eq_true, Bool.and_eq_true,
    decide_eq_true_eq]
  exact .inr ⟨⟨Nat.mod_eq_of_lt (by omega), Nat.mod_eq_of_lt (by omega)⟩, Nat.mod_eq_of_lt (by omega)⟩

/-- The end of an ACQUIRE that acquired a card (R247). -/
theorem inv_acquired (r : Result) (sd : Bool) {u : State} (hq : Quiet u) :
    State.inv { acqEnd (identified sd u) with result := r } = true := by
  obtain ⟨hacq, hwide, hbase, hst, hclk, hrf, hmem⟩ := hq
  have hend : acqEnd (identified sd u) = { identified sd u with acqResult := .acquired } := if_pos rfl
  have hparsed := parsedWhenAcquired_identified sd u
  rw [inv_iff, hend]
  refine ⟨?_, rfl, hparsed, ?_, rfl, ?_, hmem⟩
  · simp [cacheAligned, identified, finishParse, hbase]
  · simp [atRest_iff, State.between, identified, finishParse, hst, hclk, hrf]
  · simp [wideOnlySd, identified, finishParse, hwide]

/-- The end of an ACQUIRE that failed (R248): the session is cleared. -/
theorem inv_failed (r : Result) {u : State} (hq : Quiet u) (hf : u.acqState = .failed) :
    State.inv { acqEnd u with result := r } = true := by
  have hend : acqEnd u = { sessionClear u with
      acqResult := if u.sdTimedOut && u.mmcTimedOut then .noCard else .identifyFailed } := if_neg (by simp [hf])
  rw [inv_iff, hend]
  refine ⟨?_, ?_, rfl, ?_, ?_, rfl, hq.caller⟩
  · simp [cacheAligned]
  · simp [clearedUnlessAcquired]
  · simp [atRest_iff, State.between, hq.st, hq.clkRun, hq.rfState, hf]
  · cases u.sdTimedOut && u.mmcTimedOut <;> simp [acqConsistent, hf, Session.zero]

/-- ACQUIRE starts with no card acquired and nothing in progress (R220). -/
theorem acquiring_acqStart {s : State} (h : s.inv = true) : Acquiring (acqStart s) := by
  obtain ⟨-, -, -, hrest, -, -, hmem⟩ := (inv_iff s).mp h
  obtain ⟨hst, hclk, hb⟩ := (atRest_iff s).mp hrest
  have hrf : s.rfState = .idle := of_decide_eq_true (Bool.and_eq_true_iff.mp hb).2
  exact .inl ⟨⟨rfl, rfl, rfl, hst, hclk, hrf, hmem⟩, by simp [acqStart]⟩

theorem inv_execAcquire {s t : State} (hs : s.inv = true) (h : execAcquire s = .next t) : t.inv = true := by
  obtain ⟨-, u, hrun, rfl⟩ := execAcquire_cases h
  have hterm : u.acqState.terminal = true :=
    acqRun_terminal acqFuel (by simp [acqStart]) (by simp [acqStart, rulesLeft, acqFuel]) hrun
  have hu : Acquiring u := acqRun_keeps (fun _ _ => acquiring_acqStep) _ (acquiring_acqStart hs) hrun
  rcases hu with ⟨hq, hd⟩ | ⟨sd, v, hq, rfl⟩
  · exact inv_failed _ hq (by simpa [AcqState.terminal, hd] using hterm)
  · exact inv_acquired _ sd hq

theorem inv_exec {i : Instr} {s t : State} (hs : s.inv = true) (h : exec i s = .next t) : t.inv = true := by
  by_cases hi : i = .acquire
  · subst hi
    exact inv_execAcquire hs h
  · obtain ⟨ha, hr⟩ := hostActs_exec hi h
    exact ha.kept.inv hr hs

/-! ### The statements -/

/-- Settles O57: ACQUIRE by the invariant of the running acquisition (`Acquiring`), every other instruction by what it
keeps (`Kept`). -/
theorem stepsKeepTheInvariant : Obligations.StepsKeepTheInvariant := by
  intro s t hs h
  rcases step_cases h with rfl | ⟨i, rest, hx⟩
  · exact (kept_takeRequest s.port s).inv rfl hs
  · exact inv_exec ((kept_takeRequest rest s).inv rfl hs) hx

/-- Settles O59: the frame `Kept` of everything but ACQUIRE. -/
theorem onlyAcquireWritesTheSession : Obligations.OnlyAcquireWritesTheSession := by
  intro i s t hi h
  have k := (hostActs_exec hi h).1.kept
  exact ⟨k.session, k.acqState, k.acqResult⟩

/-- Settles O60: a step goes forward, being made of commands, delays and writes inside the block. -/
theorem stepsMoveForward : Obligations.StepsMoveForward := by
  intro s t h
  obtain ⟨htime, hcfg, evs, htrace⟩ := forward_step h
  exact ⟨htime, hcfg, evs, htrace.symm⟩

/-- Settles O55, by evaluation of the reset state. -/
theorem resetStateIsTheTables : Obligations.ResetStateIsTheTables :=
  ⟨rfl, rfl, rfl, rfl, rfl, rfl, rfl, rfl, rfl, rfl, rfl⟩

/-- Settles O56, clause by clause at the reset state. -/
theorem invariantHoldsAtReset : Obligations.InvariantHoldsAtReset :=
  (inv_iff State.reset).mpr ⟨rfl, rfl, rfl, rfl, rfl, rfl, rfl⟩

end Sys2Proof.Proofs

/-! SUPPORT. The rules of the card's address space and of the wire: the pairing of application commands, the cache's
window, the bytes the realizations move, the request at the port. -/

namespace Sys2Proof.Proofs

open Sys2Proof.Machine Sys2Proof.Laws

/-! ### The pairing of application commands, event by event -/

section pairing
variable (n m : Nat) (f g : Frame) (c k : ClkSel) (tr : List Event)

@[simp] theorem acmdPaired_clock : acmdPaired (⟨.clock c, n⟩ :: tr) = acmdPaired tr := rfl

@[simp] theorem acmdPaired_delayUs : acmdPaired (⟨.delayUs m, n⟩ :: tr) = acmdPaired tr := rfl

@[simp] theorem acmdPaired_delayMs : acmdPaired (⟨.delayMs m, n⟩ :: tr) = acmdPaired tr := rfl

variable {f g}

/-- A frame without an application command's index needs nothing before it. -/
theorem acmdPaired_plain (hf : ¬(frameIndex f = 6#6 ∨ frameIndex f = 41#6)) :
    acmdPaired (⟨.frame f c, n⟩ :: tr) = acmdPaired tr := by
  simp [acmdPaired, hf]

/-- Any frame may stand directly after an APP_CMD, which itself needs nothing before it. -/
theorem acmdPaired_prefixed (hg : frameIndex g = 55#6) :
    acmdPaired (⟨.frame f c, n⟩ :: ⟨.frame g k, m⟩ :: tr) = acmdPaired tr := by
  simp [acmdPaired, hg]

end pairing

theorem acmdPaired_selectClock (ls : Bool) (s : State) :
    acmdPaired (selectClock ls s).trace = acmdPaired s.trace := by
  rcases trace_selectClock ls s with ⟨-, h⟩ | ⟨-, h, -⟩ <;> simp [h]

/-- The two rows with an application command's index are the two whose `ACMD` flag is set (R101). -/
theorem index_plain {c : Cmd} (h : c.descriptor.acmd = false) :
    ¬(c.descriptor.index = 6#6 ∨ c.descriptor.index = 41#6) := by
  cases c <;> revert h <;> decide

/-- A command keeps the pairing: without the `ACMD` flag its index is no application command's; with it an APP_CMD goes
out alone, or the command stands directly on top of it (R193). -/
theorem acmdPaired_executeCmd {c : Cmd} {a : Word} {s t : State} {st : Status}
    (h : executeCmd c a s = .ok (st, t)) (hs : acmdPaired s.trace = true) : acmdPaired t.trace = true := by
  have hclock : acmdPaired (selectClock c.descriptor.ls { s with cd := ⟨c.descriptor, a⟩ }).trace = true :=
    (acmdPaired_selectClock _ _).trans hs
  obtain ⟨m, -, ⟨hplain, ht⟩ | ⟨-, ht⟩ | ⟨-, m', -, ht⟩⟩ := trace_execute h
  · rw [ht, acmdPaired_plain _ _ _ (by simpa using index_plain hplain)]
    exact hclock
  · rw [ht, acmdPaired_plain _ _ _ (by simp)]
    exact hclock
  · rw [ht, acmdPaired_prefixed _ _ _ _ _ (by simp)]
    exact hclock

theorem Acts.acmdPaired {s t : State} (h : Acts SameOutside s t) (hs : acmdPaired s.trace = true) :
    acmdPaired t.trace = true :=
  h.keeps (P := fun u => Machine.acmdPaired u.trace = true) (fun hp hx => acmdPaired_executeCmd hx hp)
    id (fun hp hw => hw.trace ▸ hp) hs

/-- Settles O58: every instruction acts on the outside by card commands and delays (`acts_exec`), and each of these
keeps the pairing. -/
theorem stepsKeepApplicationCommandsPrefixed : Obligations.StepsKeepApplicationCommandsPrefixed := by
  intro s t hs h
  rcases step_cases h with rfl | ⟨i, rest, hx⟩
  · exact hs
  · exact (acts_exec hx).acmdPaired hs

/-! ### The window of the cache -/

/-- The offset in the block is the remainder by 512 (R67). -/
theorem blockOff_eq_mod (a : Word) : blockOff a = a.toNat % 512 := by
  rw [blockOff, BitVec.toNat_and]
  exact Nat.and_two_pow_sub_one_eq_mod a.toNat 9

/-- Masking the nine low bits off is shifting them out and back. -/
theorem blockBase_eq_shift (a : Word) : blockBase a = a >>> 9 <<< 9 := by
  rw [blockBase, BitVec.shiftLeft_ushiftRight]
  rfl

/-- The block base in the naturals (R67). -/
theorem toNat_blockBase (a : Word) : (blockBase a).toNat = a.toNat / 512 * 512 := by
  rw [blockBase_eq_shift, BitVec.toNat_shiftLeft, BitVec.toNat_ushiftRight, Nat.shiftRight_eq_div_pow,
    Nat.shiftLeft_eq]
  omega

/-- An address is a base when 512 divides it. -/
theorem aligned_iff_mod (a : Word) : a &&& 0x1FF#32 = 0#32 ↔ a.toNat % 512 = 0 := by
  rw [← blockOff_eq_mod, blockOff, BitVec.toNat_eq]
  rfl

/-- The window of an aligned base, in the naturals: the sentinel is not aligned, so the comparisons decide (R66). -/
theorem inWindow_iff_of_aligned {base a : Word} (h : base &&& 0x1FF#32 = 0#32) :
    inWindow base a = true ↔ base.toNat ≤ a.toNat ∧ a.toNat < base.toNat + Config.workBlock := by
  have hb : base ≠ Config.cacheInvalid := by
    rintro rfl
    exact absurd h (by decide)
  simp [inWindow, hb]

/-- Settles O13, by the block base and the offset as quotient and remainder by 512. -/
theorem windowHoldsExactlyItsBlock : Obligations.WindowHoldsExactlyItsBlock := by
  refine ⟨fun a => ⟨?_, ?_, blockBase_aligned a⟩, fun a => by simp [inWindow], fun base a h => ?_⟩
  · rw [toNat_blockBase, blockOff_eq_mod]
    omega
  · rw [blockOff_eq_mod]
    omega
  · have hb := (aligned_iff_mod base).mp h
    rw [inWindow_iff_of_aligned h, Config.workBlock, BitVec.toNat_eq, toNat_blockBase]
    omega

/-! ### The data port of realization B -/

/-- The bytes of a data-port word are the four packed in it, the first in bits 7 to 0 (R64). -/
theorem bytes_of_word (b0 b1 b2 b3 : Byte) :
    (b3 ++ b2 ++ b1 ++ b0).extractLsb' 0 8 = b0 ∧ (b3 ++ b2 ++ b1 ++ b0).extractLsb' 8 8 = b1 ∧
    (b3 ++ b2 ++ b1 ++ b0).extractLsb' 16 8 = b2 ∧ (b3 ++ b2 ++ b1 ++ b0).extractLsb' 24 8 = b3 := by
  refine ⟨?_, ?_, ?_, ?_⟩ <;>
  · ext i hi
    simp only [BitVec.getElem_extractLsb', BitVec.getLsbD_append]
    interval_cases i <;> rfl

/-- Whole words unpack to the bytes packed. -/
theorem unpackWords_packWords (bs : List Byte) (h : bs.length % 4 = 0) : unpackWords (packWords bs) = bs := by
  induction bs using packWords.induct with
  | case1 b0 b1 b2 b3 rest ih =>
    obtain ⟨h0, h1, h2, h3⟩ := bytes_of_word b0 b1 b2 b3
    have ih := ih (by simpa [Nat.add_assoc] using h)
    rw [unpackWords] at ih ⊢
    simp only [packWords, List.flatMap_cons, ih, h0, h1, h2, h3, List.cons_append, List.nil_append]
  | case2 bs hshort =>
    match bs, h, hshort with
    | [], _, _ => rfl
    | b0 :: b1 :: b2 :: b3 :: rest, _, hshort => exact (hshort _ _ _ _ _ rfl).elim

theorem length_packWords (bs : List Byte) : (packWords bs).length = bs.length / 4 := by
  induction bs using packWords.induct with
  | case1 b0 b1 b2 b3 rest ih =>
    simp only [packWords, List.length_cons, ih]
    omega
  | case2 bs hshort =>
    match bs, hshort with
    | [], _ | [_], _ | [_, _], _ | [_, _, _], _ => simp [packWords]
    | b0 :: b1 :: b2 :: b3 :: rest, hshort => exact (hshort _ _ _ _ _ rfl).elim

/-- Bursts of at least one word, as many as there are words, move every word in its place (R198). -/
theorem flatten_bursts {k : Nat} (hk : 1 ≤ k) (n : Nat) (ws : List Word) (h : ws.length ≤ n) :
    (bursts k n ws).flatten = ws := by
  induction n generalizing ws with
  | zero => simpa [bursts] using h
  | succ n ih =>
    cases ws with
    | nil => rfl
    | cons w ws =>
      have hrest : ((w :: ws).drop k).length ≤ n := by
        simp only [List.length_drop, List.length_cons] at h ⊢
        omega
      simp only [bursts, List.isEmpty_cons, Bool.false_eq_true, if_false, List.flatten_cons, ih _ hrest,
        List.take_append_drop]

theorem moveBlock_block {k : Nat} (hk : 1 ≤ k) (b : Block) : moveBlock k b.toList = b.toList := by
  have hwords : (packWords b.toList).length ≤ 128 := by rw [length_packWords, b.size]
  rw [moveBlock, flatten_bursts hk 128 _ hwords, unpackWords_packWords _ (by rw [b.size])]

/-! ### The response words of realization B and the shift registers of realization A -/

/-- The four words of a 136-bit response reassemble to its content (R63). -/
theorem reassemble_rspWords (content : Reg128) : reassemble (rspWords (.rsp136 content)) = content := by
  unfold reassemble rspWords
  ext i hi
  simp only [BitVec.getElem_append, BitVec.getElem_extractLsb']
  interval_cases i <;> rfl

/-- The first `k` bits of a value, shifted in, are the value without its other bits. -/
theorem shiftIn_leading_bits {w : Nat} (v : BitVec w) (k : Nat) (hk : k ≤ w) :
    shiftIn ((List.range k).map fun i => v.getMsbD i) = v.toNat >>> (w - k) := by
  induction k with
  | zero => simp [shiftIn, Nat.shiftRight_eq_div_pow, Nat.div_eq_of_lt v.isLt]
  | succ k ih =>
    have hbit : (v.getMsbD k).toNat = v.toNat >>> (w - (k + 1)) % 2 := by
      rw [BitVec.getMsbD, BitVec.getLsbD, decide_eq_true (show k < w from hk), Bool.true_and, Nat.toNat_testBit,
        Nat.shiftRight_eq_div_pow, Nat.sub_sub, Nat.add_comm 1 k]
    have hhalf : v.toNat >>> (w - k) = v.toNat >>> (w - (k + 1)) / 2 := by
      rw [show w - k = w - (k + 1) + 1 by omega, Nat.shiftRight_succ]
    have ih := ih (by omega)
    rw [shiftIn] at ih ⊢
    rw [List.range_succ, List.map_append, List.foldl_append, ih]
    simp only [List.map_cons, List.map_nil, List.foldl_cons, List.foldl_nil, hbit, hhalf]
    omega

theorem shiftIn_bitsMsb {w : Nat} (v : BitVec w) : shiftIn (bitsMsb v) = v.toNat := by
  rw [bitsMsb, shiftIn_leading_bits v w le_rfl, Nat.sub_self, Nat.shiftRight_zero]

/-- Settles O16: the block by its words and bursts, the response by its four words, the frame bit by bit. -/
theorem realizationMovesTheSameBytes : Obligations.RealizationMovesTheSameBytes :=
  ⟨fun _ b hk => moveBlock_block hk b, fun content _ => congrArg regBytes (reassemble_rspWords content),
    fun f => shiftIn_bitsMsb f⟩

/-! ### The request at the port -/

section fetch
variable {s : State}

theorem fetch_of_empty (h : s.port = []) : fetch s = .nothing := by
  simp [fetch, h]

theorem fetch_of_decode {i : Instr} {rest : List Byte} (h : decode s.port = .ok (i, rest)) :
    fetch s = .request i rest := by
  unfold fetch
  split
  · next hp => simp [hp, decode] at h
  · next hp => simp [← hp, h]

theorem fetch_of_reject {why : Reject} (hne : s.port ≠ []) (h : decode s.port = .error why) :
    fetch s = .rejected why := by
  unfold fetch
  split
  · next hp => exact absurd hp hne
  · next hp => simp [← hp, h]

end fetch

/-- Settles O54, by what the port offers in each case. -/
theorem stepRunsTheDecodedRequest : Obligations.StepRunsTheDecodedRequest := by
  refine fun s => ⟨fun i rest h => ?_, fun h => ?_, fun why hne h => ?_⟩
  · rw [step, fetch_of_decode h]
    rfl
  · rw [step, fetch_of_empty h]
  · rw [step, fetch_of_reject hne h]

end Sys2Proof.Proofs

/-! SUPPORT. The encodings: operand words and frames read back from their bytes, the rows of the command table,
the descriptor words, the response buffer, the data frames and their checksum. -/

namespace Sys2Proof.Proofs

open Sys2Proof.Machine Sys2Proof.Laws

/-! ### The operands of a host operation, read back -/

section operands
variable {bs rest : List Byte} {i : Instr}

@[simp] theorem takeWord_wordBytes (w : Word) (rest : List Byte) :
    takeWord (wordBytes w ++ rest) = .ok (w, rest) :=
  congrArg (fun v => Except.ok (v, rest)) (word_of_bytes w)

/-- A word's four bytes are the only ones that it is read from. -/
theorem bytes_of_takeWord {w : Word} (h : takeWord bs = .ok (w, rest)) : bs = wordBytes w ++ rest := by
  unfold takeWord at h
  split at h
  · next b0 b1 b2 b3 r =>
    cases h
    obtain ⟨h0, h1, h2, h3⟩ := bytes_of_word b3 b2 b1 b0
    simp [wordBytes, h0, h1, h2, h3]
  · cases h

@[simp] theorem takeDesc_encodeDesc (d : Desc) (rest : List Byte) :
    takeDesc (encodeDesc d ++ rest) = .ok (d, rest) := by
  simp [takeDesc, encodeDesc]

theorem bytes_of_takeDesc {d : Desc} (h : takeDesc bs = .ok (d, rest)) : bs = encodeDesc d ++ rest := by
  unfold takeDesc at h
  split at h
  · cases h
  next start _ hs =>
  split at h
  · cases h
  next length _ hl =>
  split at h
  · cases h
  next cursor _ hc =>
  cases h
  simp [encodeDesc, bytes_of_takeWord hs, bytes_of_takeWord hl, bytes_of_takeWord hc]

theorem bytes_of_decodeOpen (h : decodeOpen bs = .ok (i, rest)) :
    ∃ d, i = .openDesc d ∧ bs = encodeDesc d ++ rest := by
  unfold decodeOpen at h
  split at h
  · cases h
  next d _ hd =>
  cases h
  exact ⟨d, rfl, bytes_of_takeDesc hd⟩

theorem bytes_of_decodeRead (h : decodeRead bs = .ok (i, rest)) :
    ∃ d n m, i = .read d n m ∧ bs = encodeDesc d ++ wordBytes n ++ wordBytes m ++ rest := by
  unfold decodeRead at h
  split at h
  · cases h
  next d _ hd =>
  split at h
  · cases h
  next n _ hn =>
  split at h
  · cases h
  next m _ hm =>
  cases h
  exact ⟨d, n, m, rfl, by simp [bytes_of_takeDesc hd, bytes_of_takeWord hn, bytes_of_takeWord hm]⟩

theorem bytes_of_decodeSeek (h : decodeSeek bs = .ok (i, rest)) :
    ∃ d p, i = .seek d p ∧ bs = encodeDesc d ++ wordBytes p ++ rest := by
  unfold decodeSeek at h
  split at h
  · cases h
  next d _ hd =>
  split at h
  · cases h
  next p _ hp =>
  cases h
  exact ⟨d, p, rfl, by simp [bytes_of_takeDesc hd, bytes_of_takeWord hp]⟩

/-- A request byte and operands decode to a host operation, and are its encoding. -/
theorem bytes_of_decodeOp {op : Byte} (h : decodeOp op bs = .ok (i, rest)) :
    cmdOf i = none ∧ i.wf = true ∧ op :: bs = encode i ++ rest := by
  unfold decodeOp at h
  split_ifs at h with h0 h1 h2 h3
  · cases h
    exact ⟨rfl, rfl, by simp [h0, encode]⟩
  · obtain ⟨d, rfl, hbs⟩ := bytes_of_decodeOpen h
    exact ⟨rfl, rfl, by simp [h1, hbs, encode]⟩
  · obtain ⟨d, n, m, rfl, hbs⟩ := bytes_of_decodeRead h
    exact ⟨rfl, rfl, by simp [h2, hbs, encode]⟩
  · obtain ⟨d, p, rfl, hbs⟩ := bytes_of_decodeSeek h
    exact ⟨rfl, rfl, by simp [h3, hbs, encode]⟩

/-- A host operation is read back from its encoding. -/
theorem decode_encode_operation (hi : cmdOf i = none) : decode (encode i ++ rest) = .ok (i, rest) := by
  cases i with
  | acquire => rfl
  | openDesc d => simp [encode, decode, decodeOp, decodeOpen]
  | read d n m => simp [encode, decode, decodeOp, decodeRead]
  | seek d p => simp [encode, decode, decodeOp, decodeSeek]
  | _ => cases hi

end operands

/-! ### The bytes of a frame -/

section frames
variable {bs rest : List Byte} {i : Instr}

/-- Six bytes are the bytes of the frame they make up. -/
theorem frameBytes_of_bytes (b0 b1 b2 b3 b4 b5 : Byte) :
    frameBytes (b0 ++ b1 ++ b2 ++ b3 ++ b4 ++ b5) = [b0, b1, b2, b3, b4, b5] := by
  simp only [frameBytes, List.cons.injEq, and_true]
  refine ⟨?_, ?_, ?_, ?_, ?_, ?_⟩ <;>
  · ext j hj
    simp only [BitVec.getElem_extractLsb', BitVec.getLsbD_append]
    interval_cases j <;> rfl

/-- Bits 47:46 of a frame are the top bits of its first byte. -/
theorem head_frameByte (f : Frame) : (f.extractLsb' 40 8).extractLsb' 6 2 = f.extractLsb' 46 2 := by
  ext j hj
  simp only [BitVec.getElem_extractLsb', BitVec.getLsbD_extractLsb']
  interval_cases j <;> rfl

/-- The frame checks and the table, on the bytes of a frame (R123). -/
theorem decode_frameBytes {f : Frame} (hf : decodeFrame f = .ok i) (rest : List Byte) :
    decode (frameBytes f ++ rest) = .ok (i, rest) := by
  have hhead : f.extractLsb' 46 2 = 0b01#2 := by
    by_contra h
    simp [decodeFrame, h] at hf
  simp [frameBytes, decode, decodeCommand, head_frameByte, hhead, frame_of_bytes, hf]

theorem bytes_of_decodeCommand (h : decodeCommand bs = .ok (i, rest)) :
    ∃ f, bs = frameBytes f ++ rest ∧ decodeFrame f = .ok i := by
  unfold decodeCommand at h
  split at h
  · next b0 b1 b2 b3 b4 b5 r =>
    split at h
    · cases h
    next j hj =>
    cases h
    exact ⟨_, by simp [frameBytes_of_bytes], hj⟩
  · cases h

theorem fields_of_decodeFrame {f : Frame} (h : decodeFrame f = .ok i) :
    f.extractLsb' 46 2 = 0b01#2 ∧ f.extractLsb' 0 1 = 1#1 ∧ decodeIndex (frameIndex f) (frameArg f) = .ok i := by
  unfold decodeFrame at h
  split_ifs at h with h46 h0
  exact ⟨not_not.mp h46, not_not.mp h0, h⟩

theorem decodeFrame_cmdFrame (index : BitVec 6) (arg : Word) :
    decodeFrame (cmdFrame index arg) = decodeIndex index arg := by
  obtain ⟨h46, h0, -⟩ := head_cmdFrame index arg
  simp [decodeFrame, h46, h0]

end frames

/-! ### The rows of the command table -/

/-- `i` is well formed and stands in a row with this index, carrying this argument (R101). -/
def InRow (index : BitVec 6) (arg : Word) (i : Instr) : Prop :=
  i.wf = true ∧ ∃ c, cmdOf i = some (c, arg) ∧ c.descriptor.index = index

/-- Each row is decoded from its own index and argument. -/
theorem decodeIndex_of_inRow {index : BitVec 6} {arg : Word} {i : Instr} (h : InRow index arg i) :
    decodeIndex index arg = .ok i := by
  obtain ⟨hwf, c, hc, rfl⟩ := h
  cases i <;> cases hc
  case selectCard => exact if_neg (of_decide_eq_true hwf)
  case readSingleBlock => exact if_pos (of_decide_eq_true hwf)
  all_goals rfl

/-- A fixed argument decodes only as the row that fixes it. -/
theorem inRow_of_fixedArg {index : BitVec 6} {want arg : Word} {i : Instr} (j : Instr)
    (h : fixedArg index want arg j = .ok i) (hj : InRow index want j) : InRow index arg i := by
  unfold fixedArg at h
  split_ifs at h with ha
  cases h
  exact ha ▸ hj

/-- An index of no row is never sent (R116). -/
theorem decodeIndex_reserved {index : BitVec 6} (h : ∀ c : Cmd, index ≠ c.descriptor.index) (arg : Word) :
    decodeIndex index arg = .error (.reservedIndex index) :=
  (if_neg (h .goIdleState)).trans <| (if_neg (h .sendOpCond)).trans <| (if_neg (h .allSendCid)).trans <|
  (if_neg (h .setRelativeAddr)).trans <| (if_neg (h .setBusWidth)).trans <| (if_neg (h .selectCard)).trans <|
  (if_neg (h .sendIfCond)).trans <| (if_neg (h .sendCsd)).trans <| (if_neg (h .stopTransmission)).trans <|
  (if_neg (h .setBlocklen)).trans <| (if_neg (h .readSingleBlock)).trans <| (if_neg (h .sdSendOpCond)).trans <|
  if_neg (h .appCmd)

/-- What decodes stands in a row of its index: the argument is the one the row fixes, or any (R123). -/
theorem inRow_of_decodeIndex {index : BitVec 6} {arg : Word} {i : Instr} (h : decodeIndex index arg = .ok i) :
    InRow index arg i := by
  by_cases hrow : ∃ c : Cmd, index = c.descriptor.index
  · obtain ⟨c, rfl⟩ := hrow
    cases c
    case goIdleState => exact inRow_of_fixedArg .goIdleState h ⟨rfl, .goIdleState, rfl, rfl⟩
    case allSendCid => exact inRow_of_fixedArg .allSendCid h ⟨rfl, .allSendCid, rfl, rfl⟩
    case setBusWidth => exact inRow_of_fixedArg .setBusWidth h ⟨rfl, .setBusWidth, rfl, rfl⟩
    case sendIfCond => exact inRow_of_fixedArg .sendIfCond h ⟨rfl, .sendIfCond, rfl, rfl⟩
    case stopTransmission => exact inRow_of_fixedArg .stopTransmission h ⟨rfl, .stopTransmission, rfl, rfl⟩
    case setBlocklen => exact inRow_of_fixedArg .setBlocklen h ⟨rfl, .setBlocklen, rfl, rfl⟩
    case sendOpCond => exact Except.ok.inj h ▸ ⟨rfl, .sendOpCond, rfl, rfl⟩
    case sendCsd => exact Except.ok.inj h ▸ ⟨rfl, .sendCsd, rfl, rfl⟩
    case sdSendOpCond => exact Except.ok.inj h ▸ ⟨rfl, .sdSendOpCond, rfl, rfl⟩
    case appCmd => exact Except.ok.inj h ▸ ⟨rfl, .appCmd, rfl, rfl⟩
    case setRelativeAddr | sendRelativeAddr =>
      by_cases harg : arg = 0
      · subst harg
        exact Except.ok.inj h ▸ ⟨rfl, .sendRelativeAddr, rfl, rfl⟩
      · exact inRow_of_fixedArg .setRelativeAddr ((if_neg harg).symm.trans h) ⟨rfl, .setRelativeAddr, rfl, rfl⟩
    case selectCard | deselectCard =>
      by_cases harg : arg = 0
      · subst harg
        exact Except.ok.inj h ▸ ⟨rfl, .deselectCard, rfl, rfl⟩
      · exact Except.ok.inj ((if_neg harg).symm.trans h) ▸ ⟨decide_eq_true harg, .selectCard, rfl, rfl⟩
    case readSingleBlock =>
      by_cases harg : arg &&& 0x1FF#32 = 0#32
      · exact Except.ok.inj ((if_pos harg).symm.trans h) ▸ ⟨decide_eq_true harg, .readSingleBlock, rfl, rfl⟩
      · cases (if_neg harg).symm.trans h
  · rw [decodeIndex_reserved (not_exists.mp hrow)] at h
    cases h

/-- The fixed bits of a row: start, direction, index and end bit whole, no CRC bit, and the row's own part of the
argument. -/
theorem mask_fields (c : Cmd) : c.mask = 0b11#2 ++ 0b111111#6 ++ frameArg c.mask ++ 0#7 ++ 1#1 := by
  cases c <;> decide

theorem pattern_fields (c : Cmd) :
    c.pattern = 0b01#2 ++ c.descriptor.index ++ frameArg c.pattern ++ 0#7 ++ 1#1 := by
  cases c <;> decide

/-- A frame is its fields (R91). -/
theorem frame_of_fields (f : Frame) :
    f.extractLsb' 46 2 ++ frameIndex f ++ frameArg f ++ frameCrc f ++ f.extractLsb' 0 1 = f := by
  unfold frameIndex frameArg frameCrc
  ext j hj
  simp only [BitVec.getElem_append, BitVec.getElem_extractLsb']
  interval_cases j <;> rfl

/-- A frame with a row's head, index and part of the argument, and the end bit, matches the row. -/
theorem frame_matches_row {f : Frame} {c : Cmd} (h46 : f.extractLsb' 46 2 = 0b01#2)
    (h0 : f.extractLsb' 0 1 = 1#1) (hindex : c.descriptor.index = frameIndex f)
    (harg : frameArg f &&& frameArg c.mask = frameArg c.pattern) : f &&& c.mask = c.pattern := by
  have hand : (0b01#2 ++ frameIndex f ++ frameArg f ++ frameCrc f ++ 1#1) &&&
      (0b11#2 ++ BitVec.allOnes 6 ++ frameArg c.mask ++ 0#7 ++ 1#1) =
      0b01#2 ++ frameIndex f ++ (frameArg f &&& frameArg c.mask) ++ 0#7 ++ 1#1 := by
    simp only [BitVec.and_append, BitVec.and_allOnes, BitVec.and_zero, BitVec.and_self]
    rfl
  calc f &&& c.mask = (0b01#2 ++ frameIndex f ++ frameArg f ++ frameCrc f ++ 1#1) &&& c.mask := by
        rw [← h46, ← h0, frame_of_fields]
    _ = 0b01#2 ++ c.descriptor.index ++ frameArg c.pattern ++ 0#7 ++ 1#1 := by
        rw [mask_fields, hindex, ← harg]
        exact hand
    _ = c.pattern := (pattern_fields c).symm

/-- A well-formed instruction's argument has the bits that its row fixes. -/
theorem arg_matches_row {i : Instr} {c : Cmd} {arg : Word} (hi : i.wf = true) (hc : cmdOf i = some (c, arg)) :
    arg &&& frameArg c.mask = frameArg c.pattern := by
  cases i <;> cases hc
  case readSingleBlock => exact of_decide_eq_true hi
  case sendOpCond | selectCard | sendCsd | sdSendOpCond | appCmd => exact BitVec.and_zero
  all_goals decide

theorem encode_of_cmdOf {i : Instr} {c : Cmd} {arg : Word} (hc : cmdOf i = some (c, arg)) :
    encode i = encodeCmd c arg := by
  cases i <;> cases hc <;> rfl

/-! ### The statements on decoding -/

/-- Settles O2: a host operation is read back operand by operand, a card command by the fields of its frame and its
row. -/
theorem decodeOfEncodeIsTheInstruction : Obligations.DecodeOfEncodeIsTheInstruction := by
  intro i rest hi
  cases hc : cmdOf i with
  | none => exact decode_encode_operation hc
  | some row =>
    obtain ⟨c, arg⟩ := row
    rw [encode_of_cmdOf hc, encodeCmd]
    refine decode_frameBytes ?_ rest
    rw [decodeFrame_cmdFrame]
    exact decodeIndex_of_inRow ⟨hi, c, hc, rfl⟩

/-- Settles O3: the first byte tells a frame from a request; a frame's fields put it in its row
(`inRow_of_decodeIndex`), and the row's bits follow (`frame_matches_row`). -/
theorem decodedBytesAreTheTableRow : Obligations.DecodedBytesAreTheTableRow := by
  intro bs rest i h
  match bs with
  | [] => cases h
  | b :: bs =>
    obtain ⟨-, h⟩ | ⟨-, h⟩ := ite_eq_iff.mp h
    · obtain ⟨f, hbs, hf⟩ := bytes_of_decodeCommand h
      obtain ⟨h46, h0, hindex⟩ := fields_of_decodeFrame hf
      obtain ⟨hwf, c, hc, hci⟩ := inRow_of_decodeIndex hindex
      refine ⟨hwf, fun hnone => (by cases hc.symm.trans hnone), fun c' arg hc' => ?_⟩
      cases hc.symm.trans hc'
      exact ⟨f, hbs, frame_matches_row h46 h0 hci (arg_matches_row hwf hc), rfl, hci.symm⟩
    · obtain ⟨hnone, hwf, hbs⟩ := bytes_of_decodeOp h
      exact ⟨hwf, fun _ => hbs, fun c arg hc => by cases hnone.symm.trans hc⟩

theorem mem_cmdAll (c : Cmd) : c ∈ Cmd.all := by
  cases c <;> decide

/-- Two rows whose fixed bits agree where both fix them are the same, or are the two of index 7 (R123). -/
theorem rows_compatible : ∀ c ∈ Cmd.all, ∀ c' ∈ Cmd.all, c.pattern &&& c'.mask = c'.pattern &&& c.mask →
    c = c' ∨ (c = .selectCard ∧ c' = .deselectCard) ∨ (c = .deselectCard ∧ c' = .selectCard) := by
  decide

/-- Settles O4: on one frame, the bits that two rows both fix agree. -/
theorem rowsOverlapOnlyAtIndexSeven : Obligations.RowsOverlapOnlyAtIndexSeven := by
  intro c c' f h h'
  refine rows_compatible c (mem_cmdAll c) c' (mem_cmdAll c') ?_
  calc c.pattern &&& c'.mask = f &&& c.mask &&& c'.mask := by rw [h]
    _ = f &&& c'.mask &&& c.mask := by rw [BitVec.and_assoc, BitVec.and_comm c.mask, BitVec.and_assoc]
    _ = c'.pattern &&& c.mask := by rw [h']

/-- Settles O1, by running the decoder. -/
theorem framesOfTheSpecDecodeToTheirCommands : Obligations.FramesOfTheSpecDecodeToTheirCommands := by
  unfold Obligations.FramesOfTheSpecDecodeToTheirCommands
  decide

/-- Settles O6, by the one case that the wire adds to the table (R109). -/
theorem applicationCommandsNeedTheirPrefixOnTheWire :
    Obligations.ApplicationCommandsNeedTheirPrefixOnTheWire := by
  refine fun f hf => ⟨fun g hg => if_neg ?_, fun g hg => if_pos ⟨hf, ?_⟩, if_pos ⟨hf, by simp⟩⟩
  · rintro ⟨-, hprev⟩
    simp [hg] at hprev
  · simpa using hg

/-! ### The fields of a command frame -/

section fields
variable (index : BitVec 6) (arg : Word)

/-- The two parts of a frame that the checksum relates: its field, and the bits it covers (R91). -/
theorem parts_of_frame (head : BitVec 40) (crc : BitVec 7) :
    (head ++ crc ++ 1#1).extractLsb' 1 7 = crc ∧ (head ++ crc ++ 1#1).extractLsb' 8 40 = head := by
  constructor <;>
  · ext j hj
    simp only [BitVec.getElem_extractLsb', BitVec.getLsbD_append]
    interval_cases j <;> rfl

theorem head_bits_cmdFrame :
    (cmdFrame index arg).extractLsb' 47 1 = 0#1 ∧ (cmdFrame index arg).extractLsb' 46 1 = 1#1 := by
  unfold cmdFrame cmdHead
  generalize crc7 (bitsMsb (0b01#2 ++ index ++ arg)) = c
  constructor <;>
  · ext j hj
    simp only [BitVec.getElem_extractLsb', BitVec.getLsbD_append]
    interval_cases j
    simp

theorem frameBytes_cmdFrame :
    frameBytes (cmdFrame index arg) =
      [0x40#8 ||| index.setWidth 8, arg.extractLsb' 24 8, arg.extractLsb' 16 8, arg.extractLsb' 8 8,
        arg.extractLsb' 0 8, (crc7 (bitsMsb (0b01#2 ++ index ++ arg)) ++ 0#1) ||| 1#8] := by
  unfold cmdFrame cmdHead
  generalize crc7 (bitsMsb (0b01#2 ++ index ++ arg)) = c
  simp only [frameBytes, List.cons.injEq, and_true]
  refine ⟨?_, ?_, ?_, ?_, ?_, ?_⟩ <;>
  · ext j hj
    simp only [BitVec.getElem_extractLsb', BitVec.getLsbD_append, BitVec.getElem_or, BitVec.getElem_append,
      BitVec.getElem_setWidth]
    interval_cases j <;> simp

end fields

/-- Settles O5, field by field and byte by byte. -/
theorem commandFrameHasItsFields : Obligations.CommandFrameHasItsFields := by
  intro index arg
  obtain ⟨h47, h46⟩ := head_bits_cmdFrame index arg
  obtain ⟨-, h0, -⟩ := head_cmdFrame index arg
  obtain ⟨hcrc, hhead⟩ := parts_of_frame (cmdHead index arg) (crc7 (bitsMsb (cmdHead index arg)))
  refine ⟨h47, h46, frameIndex_cmdFrame index arg, frameArg_cmdFrame index arg, ?_, h0, rfl,
    frameBytes_cmdFrame index arg, by decide +kernel, by decide +kernel⟩
  rw [frameCrc, cmdFrame, hcrc, hhead]

/-! ### The descriptor words -/

/-- Settles O7, row by row. -/
theorem descriptorWordsOfTheTable : Obligations.DescriptorWordsOfTheTable := by
  unfold Obligations.DescriptorWordsOfTheTable
  decide

/-- Settles O17, row by row. -/
theorem transferTypeWords : Obligations.TransferTypeWords := by
  unfold Obligations.TransferTypeWords
  decide

theorem ofCode_code (r : RspFormat) : RspFormat.ofCode r.code = some r := by
  cases r <;> rfl

theorem ofCode_eq_none_iff (c : BitVec 3) : RspFormat.ofCode c = none ↔ c = 7#3 := by
  revert c
  decide

/-- The fields of a descriptor's word, each at its place (R100). -/
theorem fields_of_toWord (d : Descriptor) :
    d.toWord.extractLsb' 14 2 = 0#2 ∧ d.toWord.extractLsb' 6 3 = d.rsp.code ∧ d.toWord.extractLsb' 0 6 = d.index ∧
    d.toWord.getLsbD 9 = d.ls ∧ d.toWord.getLsbD 10 = d.acmd ∧ d.toWord.getLsbD 11 = d.data ∧
    d.toWord.getLsbD 12 = d.write ∧ d.toWord.getLsbD 13 = d.busy := by
  unfold Descriptor.toWord
  generalize d.rsp.code = r
  refine ⟨?_, ?_, ?_, ?_, ?_, ?_, ?_, ?_⟩
  case refine_1 | refine_2 | refine_3 =>
    ext j hj
    simp only [BitVec.getElem_extractLsb', BitVec.getLsbD_append]
    interval_cases j <;> simp
  all_goals
    simp only [BitVec.getLsbD_append]
    simp

/-- Settles O8: the fields read back one by one; a word is refused for its flags or its tag code. -/
theorem descriptorWordRoundTrip : Obligations.DescriptorWordRoundTrip := by
  refine ⟨fun d hd => ?_, fun w => ?_⟩
  · obtain ⟨htop, hrsp, hindex, hls, hacmd, hdata, hwrite, hbusy⟩ := fields_of_toWord d
    rw [Descriptor.ofWord, if_neg (by rw [htop, hwrite, hd]; simp), hrsp, ofCode_code, hindex, hls, hacmd, hdata,
      hbusy, ← hd]
    rfl
  · unfold Descriptor.ofWord
    split_ifs with h
    · simp only [true_iff]
      tauto
    · rw [Option.map_eq_none_iff, ofCode_eq_none_iff]
      tauto

/-! ### The response buffer -/

/-- Byte `i` of a register's buffer is its bits `127 - 8i` to `120 - 8i` (R10, R62). -/
theorem getElem?_regBytes (v : Reg128) (i : Nat) (hi : i < 16) :
    (regBytes v).toList[i]? = some (v.extractLsb' (120 - 8 * i) 8) := by
  interval_cases i <;> rfl

/-- Settles O14, by what the decoders read (`be32_assembleRb` and the lemmas beside it) and byte by byte. -/
theorem responseBufferHoldsThePayloadTwice : Obligations.ResponseBufferHoldsThePayloadTwice :=
  fun pad index payload crc content =>
    ⟨be32_assembleRb pad index payload crc, be32_assembleRb_again pad index payload crc,
      decodeOcr_assembleRb pad index payload crc, decodeRca_assembleRb pad index payload crc,
      getElem?_regBytes content, val128_assembleRb pad content⟩

/-! ### The data frames -/

/-- Where every element gives `n` others, element `k` gives those at `n * k` to `n * k + n - 1`. -/
theorem getElem?_flatMap_of_length {α β : Type} {n : Nat} {f : α → List β} (hf : ∀ a, (f a).length = n)
    {r : Nat} (hr : r < n) {as : List α} {k : Nat} (hk : k < as.length) :
    (as.flatMap f)[n * k + r]? = (f as[k])[r]? := by
  induction as generalizing k with
  | nil => cases hk
  | cons a as ih =>
    rw [List.flatMap_cons]
    cases k with
    | zero => rw [List.getElem?_append_left (by simpa [hf])]; simp
    | succ k =>
      rw [List.getElem?_append_right (by rw [hf]; exact Nat.le_add_right_of_le (Nat.le_mul_of_pos_right _ k.succ_pos)),
        hf, show n * (k + 1) + r - n = n * k + r by rw [Nat.mul_succ]; omega]
      exact ih (Nat.lt_of_succ_lt_succ hk)

theorem getElem?_line4 {bs : List Byte} {k : Nat} (hk : k < bs.length) (j : Nat) :
    (line4 bs j)[2 * k]? = some ((bs.getD k 0).getLsbD (4 + j)) ∧
    (line4 bs j)[2 * k + 1]? = some ((bs.getD k 0).getLsbD j) := by
  have hlen (b : Byte) : [b.getLsbD (4 + j), b.getLsbD j].length = 2 := rfl
  rw [List.getD_eq_getElem _ _ hk]
  exact ⟨getElem?_flatMap_of_length hlen (r := 0) two_pos hk, getElem?_flatMap_of_length hlen one_lt_two hk⟩

theorem getElem?_bitsOfBytes {bs : List Byte} {k : Nat} (hk : k < 8 * bs.length) :
    (bitsOfBytes bs)[k]? = some ((bs.getD (k / 8) 0).getLsbD (7 - k % 8)) := by
  have hr : k % 8 < 8 := Nat.mod_lt _ (by decide)
  have hbyte : k / 8 < bs.length := by omega
  have h := getElem?_flatMap_of_length (f := bitsMsb (w := 8)) length_bitsMsb hr hbyte
  rw [Nat.div_add_mod] at h
  rw [bitsOfBytes, h, List.getD_eq_getElem _ _ hbyte]
  simp [bitsMsb, BitVec.getMsbD, hr]

/-! ### CRC-16 -/

theorem crc16Bits_append_bit (bits : List Bool) (b : Bool) :
    crc16Bits (bits ++ [b]) = crc16Step (crc16Bits bits) b := by
  simp [crc16Bits, crc16From_append]

/-- The register's top bit is its bit 15, and a step shifts and adds the generator when it and the input differ. -/
theorem crc16Step_eq (r : BitVec 16) (b : Bool) :
    crc16Step r b = (r <<< 1) ^^^ if r.getLsbD 15 ^^ b then 0x1021#16 else 0#16 := by
  rw [crc16Step, BitVec.msb_eq_getLsbD_last]
  split <;> simp

/-- A bit from outside is a bit in the top of the register: it goes in as it goes out (R142). -/
theorem crc16Step_xor (r c : BitVec 16) : crc16Step (r ^^^ c) c.msb = crc16Step r false ^^^ c <<< 1 := by
  have hshift : (r ^^^ c) <<< 1 = r <<< 1 ^^^ c <<< 1 := BitVec.shiftLeft_xor_distrib ..
  simp only [crc16Step, BitVec.msb_xor, Bool.xor_assoc, Bool.xor_self, hshift]
  split
  · rw [BitVec.xor_assoc, BitVec.xor_assoc, BitVec.xor_comm (c <<< 1)]
  · rfl

/-- The register `r ^^^ c`, fed the leading `k` bits of `c`, ends as `r` does after `k` zeros, with the other bits of
`c` shifted to its top: each bit fed cancels the bit of `c` that goes out. -/
theorem crc16From_leading_bits (r c : BitVec 16) (k : Nat) :
    crc16From (r ^^^ c) ((List.range k).map fun i => c.getMsbD i) = (crc16Step · false)^[k] r ^^^ c <<< k := by
  induction k with
  | zero => simp
  | succ k ih =>
    have hbit : c.getMsbD k = (c <<< k).msb := by simp [BitVec.msb]
    rw [List.range_succ, List.map_append, crc16From_append, ih]
    simp only [List.map_cons, List.map_nil, crc16From_cons, crc16From_nil, hbit, crc16Step_xor,
      Function.iterate_succ_apply', BitVec.shiftLeft_add]

/-- The generator is odd, so a register that shifts to 0 was 0. -/
theorem crc16Step_eq_zero_iff (r : BitVec 16) : crc16Step r false = 0#16 ↔ r = 0#16 := by
  rw [crc16Step, Bool.xor_false]
  split
  · next hmsb =>
    constructor
    · intro h
      simpa using congrArg (·.getLsbD 0) h
    · rintro rfl
      simp at hmsb
  · next hmsb =>
    have hlt := BitVec.msb_eq_false_iff_two_mul_lt.mp (Bool.eq_false_of_not_eq_true hmsb)
    rw [BitVec.toNat_eq, BitVec.toNat_eq, BitVec.toNat_shiftLeft, Nat.shiftLeft_eq]
    simp only [BitVec.toNat_ofNat]
    omega

theorem crc16Step_iterate_eq_zero_iff (k : Nat) (r : BitVec 16) :
    (crc16Step · false)^[k] r = 0#16 ↔ r = 0#16 := by
  induction k with
  | zero => rfl
  | succ k ih => rw [Function.iterate_succ_apply', crc16Step_eq_zero_iff, ih]

/-- A checksum fed after its string brings the register to 0, and nothing else does. -/
theorem crc16From_bitsMsb_eq_zero_iff (r c : BitVec 16) : crc16From r (bitsMsb c) = 0#16 ↔ c = r := by
  have h := crc16From_leading_bits (r ^^^ c) c 16
  rw [BitVec.xor_assoc, BitVec.xor_self, BitVec.xor_zero, BitVec.shiftLeft_eq_zero le_rfl, BitVec.xor_zero] at h
  rw [bitsMsb, h, crc16Step_iterate_eq_zero_iff, BitVec.xor_eq_zero_iff, eq_comm]

/-- Settles O15: the places of the bits by `getElem?_flatMap_of_length`, the residue by `crc16From_leading_bits`. -/
theorem dataFramesInterleaveTheirLines : Obligations.DataFramesInterleaveTheirLines := by
  refine ⟨fun b crc j => ⟨?_, ?_⟩, fun bs j k hk => getElem?_line4 hk j, rfl, fun bits b => ?_, fun bits c => ?_,
    fun bs => ⟨fun k hk => getElem?_bitsOfBytes hk, length_bitsOfBytes bs, rfl, rfl⟩, by decide +kernel⟩
  · simp [dataFrame1, dataFrameLength, length_bitsOfBytes, b.size]
  · simp [dataFrame4, dataFrameLength, length_line4, b.size]
  · rw [crc16Bits_append_bit, crc16Step_eq]
  · rw [crc16Bits, crc16From_append]
    exact crc16From_bitsMsb_eq_zero_iff _ c

end Sys2Proof.Proofs

/-! SUPPORT. The pure functions on responses and on the CSD: the CRC-7 residue, the bit reader, the capacity. -/

namespace Sys2Proof.Proofs

open Sys2Proof.Machine Sys2Proof.Laws

/-! ### CRC-7 -/

/-- The generator is odd, so the lowest bit after a step tells what the top bit before it was, and with that the shift
can be undone. -/
theorem crc7Step_injective (b : Bool) : Function.Injective (crc7Step · b) := by
  have hlow (r : BitVec 7) : (crc7Step r b)[0] = (r.msb ^^ b) := by
    rw [crc7Step]
    split
    · next h => simp [h]
    · next h => simp [Bool.eq_false_of_not_eq_true h]
  intro r r' h
  have hmsb : r.msb = r'.msb := by
    simpa [hlow] using congrArg (·[0]) h
  have hshift : r <<< 1 = r' <<< 1 := by
    simp only [crc7Step, hmsb] at h
    split at h
    · exact (BitVec.xor_left_inj _).mp h
    · exact h
  ext i hi
  rcases Nat.lt_succ_iff_lt_or_eq.mp hi with hi | rfl
  · simpa [Nat.succ_lt_succ hi] using congrArg (·.getLsbD (i + 1)) hshift
  · simpa [BitVec.msb_eq_getLsbD_last] using hmsb

theorem crc7From_injective (bits : List Bool) : Function.Injective (crc7From · bits) := by
  induction bits with
  | nil => exact Function.injective_id
  | cons b bits ih =>
    simp only [crc7From_cons]
    exact ih.comp (crc7Step_injective b)

/-- A bit that equals the one going out cancels it: the generator is not added. -/
theorem crc7Step_msb (c : BitVec 7) : crc7Step c c.msb = c <<< 1 := by
  simp [crc7Step]

/-- A register fed its own leading `k` bits only shifts. -/
theorem crc7From_own_leading_bits (c : BitVec 7) (k : Nat) :
    crc7From c ((List.range k).map fun i => c.getMsbD i) = c <<< k := by
  induction k with
  | zero => simp
  | succ k ih =>
    have hbit : c.getMsbD k = (c <<< k).msb := by simp [BitVec.msb]
    rw [List.range_succ, List.map_append, crc7From_append, ih, List.map_singleton, hbit,
      crc7From_cons, crc7From_nil, crc7Step_msb, BitVec.shiftLeft_add]

/-- A register fed its own bits ends at 0, and no other register does on those bits. -/
theorem crc7From_bitsMsb_eq_zero_iff (r c : BitVec 7) : crc7From r (bitsMsb c) = 0#7 ↔ c = r := by
  have hown : crc7From c (bitsMsb c) = 0#7 :=
    (crc7From_own_leading_bits c 7).trans (BitVec.shiftLeft_eq_zero le_rfl)
  constructor
  · intro h
    exact (crc7From_injective _ (h.trans hown.symm)).symm
  · rintro rfl
    exact hown

/-! ### The check of a response -/

/-- The formats whose CRC is checked (R102, R141). -/
theorem checksCrc_iff (f : RspFormat) :
    f.checksCrc = true ↔ f = .r1 ∨ f = .r1b ∨ f = .r6 ∨ f = .r7 ∨ f = .r2 := by
  cases f <;> decide

theorem checkRsp_eq_rspCrc_iff (index : BitVec 6) (f : RspFormat) (rsp : Rsp) :
    checkRsp index f rsp = some .rspCrc ↔ f.checksCrc = true ∧ rsp.crcField ≠ rsp.computedCrc := by
  rw [← decide_eq_true_iff (p := rsp.crcField ≠ rsp.computedCrc), ← Bool.and_eq_true_iff, checkRsp]
  split_ifs with hcrc hindex
  · exact iff_of_true rfl hcrc
  · exact iff_of_false (by simp) hcrc
  · exact iff_of_false (by simp) hcrc

/-- The header of a 136-bit response stands above its content (R94). -/
theorem extractLsb'_rsp136Frame (content : Reg128) {start len : Nat} (h : start + len ≤ 128) :
    (rsp136Frame content).extractLsb' start len = content.extractLsb' start len := by
  ext i hi
  have hlow : start + i < 128 := by omega
  simp only [rsp136Frame, BitVec.getElem_extractLsb', BitVec.getLsbD_append, if_pos hlow]

/-- Settles O9: a register that the field brings to 0 is the field (`crc7From_bitsMsb_eq_zero_iff`); the rest by the
parts of a frame. -/
theorem crcCheckIsTheZeroResidue : Obligations.CrcCheckIsTheZeroResidue := by
  refine ⟨fun bits c => ?_, checksCrc_iff, checkRsp_eq_rspCrc_iff, fun index payload crc => ?_, fun content => ?_⟩
  · rw [crc7, crc7From_append]
    exact crc7From_bitsMsb_eq_zero_iff _ c
  · obtain ⟨hcrc, hhead⟩ := parts_of_frame (rspHead index payload) crc
    rw [rspFrame, hcrc, hhead]
    exact ⟨rfl, rfl⟩
  · rw [extractLsb'_rsp136Frame content (by decide), extractLsb'_rsp136Frame content (by decide)]
    exact ⟨rfl, rfl⟩

/-! ### The bit reader -/

/-- Bit `k` of a byte array's value is bit `k mod 8` of byte `k div 8` counted from the last byte. -/
theorem testBit_bytesVal (bs : List Byte) (k : Nat) :
    (bytesVal bs).testBit k = (bs.reverse.getD (k / 8) 0).getLsbD (k % 8) := by
  induction bs using List.reverseRecOn generalizing k with
  | nil => simp [bytesVal]
  | append_singleton bs b ih =>
    have hval : bytesVal (bs ++ [b]) = 2 ^ 8 * bytesVal bs + b.toNat := by
      simp [bytesVal, Nat.mul_comm]
    rw [hval, Nat.testBit_two_pow_mul_add _ b.isLt, List.reverse_append, List.reverse_singleton,
      List.singleton_append]
    split
    · next hk => rw [Nat.div_eq_of_lt hk, Nat.mod_eq_of_lt hk, List.getD_cons_zero, BitVec.getLsbD]
    · next hk =>
      have hdiv : k / 8 = (k - 8) / 8 + 1 := by omega
      have hmod : k % 8 = (k - 8) % 8 := by omega
      rw [ih, hdiv, hmod, List.getD_cons_succ]

theorem testBit_bitField (v off len j : Nat) (hj : j < len) : (bitField v off len).testBit j = v.testBit (off + j) := by
  simp [bitField, hj]

/-- The bit reader's bit at its transmission position (R135). -/
theorem testBit_bitField_bytesVal {bs : List Byte} {off len j : Nat} (hlen : off + len ≤ 8 * bs.length)
    (hj : j < len) :
    (bitField (bytesVal bs) off len).testBit j =
      (bs.getD ((8 * bs.length - off - 1 - j) / 8) 0).getLsbD (7 - (8 * bs.length - off - 1 - j) % 8) := by
  have hbyte : (8 * bs.length - off - 1 - j) / 8 = bs.length - 1 - (off + j) / 8 := by omega
  have hbit : 7 - (8 * bs.length - off - 1 - j) % 8 = (off + j) % 8 := by omega
  rw [testBit_bitField _ _ _ _ hj, testBit_bytesVal, List.getD_reverse _ (by omega), hbyte, hbit]

/-- Settles O10, bit by bit (`testBit_bitField_bytesVal`). -/
theorem fieldReadsTheTransmittedBits : Obligations.FieldReadsTheTransmittedBits := by
  refine fun bs off len => ⟨fun h => ?_, fun h => if_neg h, by decide⟩
  have ⟨_, _, hlen⟩ := h
  exact ⟨bitField (bytesVal bs) off len, if_pos h, Nat.mod_lt _ (Nat.two_pow_pos len),
    fun _ hj => testBit_bitField_bytesVal hlen hj⟩

/-! ### The CSD -/

/-- The sixteen bytes of a register are its value. -/
theorem bytesVal_bytes16 (v : Reg128) : bytesVal (bytes16 v) = v.toNat := by
  refine Nat.eq_of_testBit_eq fun k => ?_
  rw [testBit_bytesVal, BitVec.testBit_toNat]
  by_cases hk : k < 128
  · have hbyte : k / 8 < (bytes16 v).length := by simp [bytes16]; omega
    have hpos : 8 * (15 - (15 - k / 8)) + k % 8 = k := by omega
    have hmod : k % 8 < 8 := Nat.mod_lt _ (by decide)
    rw [List.getD_reverse _ hbyte, List.getD_eq_getElem _ _ (by omega)]
    simp [bytes16, byteOf, hpos, hmod]
  · rw [List.getD_eq_default _ _ (by simp [bytes16]; omega), BitVec.getLsbD_of_ge v k (Nat.le_of_not_lt hk)]
    simp

/-- What the bit reader reads of a register's bytes is what stands at those bits of the register (R134, R137). -/
theorem bitField_bytes16 (v : Reg128) (off len : Nat) :
    bitField (bytesVal (bytes16 v)) off len = (v.extractLsb' off len).toNat := by
  rw [bytesVal_bytes16, BitVec.extractLsb'_toNat, bitField]

/-- Settles O11, by `bitField_bytes16` at each of the three places. -/
theorem csdFieldsAreRegisterBits : Obligations.CsdFieldsAreRegisterBits :=
  fun csd => ⟨rfl, bitField_bytes16 csd 80 4, rfl, bitField_bytes16 csd 62 12, rfl, bitField_bytes16 csd 47 3⟩

/-- What the parse writes is the capacity, without wrap (R138). -/
theorem finishParse_capacity (s : State) :
    (finishParse s).session.blockLen.toNat = csdBlockLen s.session.csd ∧
    (finishParse s).session.blockCount.toNat = csdBlockCount s.session.csd ∧
    (finishParse s).session.deviceSize.toNat = csdDeviceSize s.session.csd := by
  have hlen := csdBlockLen_le s.session.csd
  have hcount := csdBlockCount_le s.session.csd
  have hsize := csdDeviceSize_le s.session.csd
  exact ⟨Nat.mod_eq_of_lt (by omega), Nat.mod_eq_of_lt (by omega), Nat.mod_eq_of_lt (by omega)⟩

/-- Settles O12: the bounds are `csdBlockLen_le` and the two beside it, the writes `finishParse_capacity`. -/
theorem capacityFitsItsRegisters : Obligations.CapacityFitsItsRegisters := by
  refine ⟨fun csd => ⟨rfl, rfl, rfl, csdBlockLen_le csd, csdBlockCount_le csd, csdDeviceSize_le csd, ?_⟩, ?_⟩
  · rintro s rfl
    exact finishParse_capacity s
  · intro csd hsize hmult hlen
    simp [csdDeviceSize, csdBlockCount, csdBlockLen, hsize, hmult, hlen]

end Sys2Proof.Proofs

/-! SUPPORT. The card commands run forward: how a response is judged, where a command's own exchange begins, what the
end of `execute` leaves, and the data phase. -/

namespace Sys2Proof.Proofs

open Sys2Proof.Machine Sys2Proof.Laws

/-! ### The checks of a response (R110, R296) -/

section checks
variable {index idx : BitVec 6} {fmt : RspFormat} {payload : Word} {crc : BitVec 7} {rsp : Rsp} {content : Reg128}

/-- A format whose index is compared has 48 bits and a checked CRC (R102). -/
theorem checked_format (h : fmt.checksIndex = true) :
    fmt.is48 = true ∧ fmt.checksCrc = true ∧ fmt ≠ .none ∧ fmt ≠ .r2 := by
  cases fmt <;> revert h <;> decide

theorem format_of_fits (hf : rsp.fits fmt = true) (hne : rsp ≠ .noResponse) : fmt ≠ .none := by
  rintro rfl
  cases rsp with
  | noResponse => exact hne rfl
  | rsp48 => cases hf
  | rsp136 => cases hf

theorem checkRsp_wrongCrc (hf : fmt.checksCrc = true) (h : crc ≠ rspCrc idx payload) :
    checkRsp index fmt (.rsp48 idx payload crc) = some .rspCrc :=
  (checkRsp_eq_rspCrc_iff index fmt _).mpr ⟨hf, h⟩

theorem checkRsp_wrongIndex (hf : fmt.checksIndex = true) (h : idx ≠ index) :
    checkRsp index fmt (goodRsp idx payload) = some .cmdIndex := by
  simp [checkRsp, goodRsp, rspCrc, Rsp.crcField, Rsp.computedCrc, Rsp.indexField, hf, h]

theorem checkRsp_goodRsp : checkRsp index fmt (goodRsp index payload) = none := by
  simp [checkRsp, goodRsp, rspCrc, Rsp.crcField, Rsp.computedCrc, Rsp.indexField]

theorem checkRsp_unchecked (hc : fmt.checksCrc = false) (hi : fmt.checksIndex = false) :
    checkRsp index fmt rsp = none := by
  simp [checkRsp, hc, hi]

theorem checkRsp_register :
    checkRsp index .r2 (.rsp136 content) = if regCrcGood content then none else some .rspCrc := by
  by_cases h : content.extractLsb' 1 7 = crc7 (bitsMsb (content.extractLsb' 8 120)) <;>
    simp [checkRsp, regCrcGood, Rsp.crcField, Rsp.computedCrc, RspFormat.checksCrc, RspFormat.checksIndex, h]

end checks

/-! ### How an exchange ends -/

/-- How an exchange that expects a response ends on this answer: with which failure, or none, and after how many
milliseconds at least (R192, R197, R203). -/
inductive Verdict (index : BitVec 6) (fmt : RspFormat) (busy : Bool) (ans : Answer) :
    Option FailKind → Nat → Prop where
  | silent (hfmt : fmt ≠ .none) (h : ans.rsp = .noResponse) :
      Verdict index fmt busy ans (some .cmdTimeout) Config.tCmdMs
  | bad {k : FailKind} (hfit : ans.rsp.fits fmt = true) (hne : ans.rsp ≠ .noResponse)
      (h : checkRsp index fmt ans.rsp = some k) : Verdict index fmt busy ans (some k) 0
  | held (hfit : ans.rsp.fits fmt = true) (hne : ans.rsp ≠ .noResponse) (h : checkRsp index fmt ans.rsp = none)
      (hbusy : busy = true) (hheld : ans.busyReleased = false) :
      Verdict index fmt busy ans (some .dataTimeout) Config.tBusyMs
  | good (hfit : ans.rsp.fits fmt = true) (hne : ans.rsp ≠ .noResponse) (h : checkRsp index fmt ans.rsp = none)
      (hreleased : busy = true → ans.busyReleased = true) : Verdict index fmt busy ans none 0

section verdict
variable {index idx : BitVec 6} {fmt : RspFormat} {busy : Bool} {ans : Answer} {k : Option FailKind} {n : Nat}
  {a payload : Word} {crc : BitVec 7} {content : Reg128} {s : State}

theorem takeRsp_bad {e : FailKind} (h : checkRsp index fmt ans.rsp = some e) :
    takeRsp index fmt busy ans s = (some e, raise e s) := by
  simp [takeRsp, h]

theorem takeRsp_held (h : checkRsp index fmt ans.rsp = none) (hbusy : busy = true)
    (hheld : ans.busyReleased = false) :
    takeRsp index fmt busy ans s =
      (some .dataTimeout, raise .dataTimeout ((storeRsp ans.rsp s).advance Config.tBusyMs)) := by
  simp [takeRsp, h, busyWait, hbusy, hheld]

theorem takeRsp_good (h : checkRsp index fmt ans.rsp = none) (hreleased : busy = true → ans.busyReleased = true) :
    takeRsp index fmt busy ans s = (none, storeRsp ans.rsp s) := by
  simpa [takeRsp, h, busyWait] using hreleased

/-- The exchange ends as its answer is judged, and a good response is in `RB` (R111). -/
theorem exchange_of_verdict (v : Verdict index fmt busy (nextAnswer s) k n) :
    ∃ t, exchange index a fmt busy s = .ok (k, t) ∧ s.nowMs + n ≤ t.nowMs ∧
      (k = none → ∃ pad, t.rb = assembleRb pad (nextAnswer s).rsp) := by
  cases v with
  | silent hfmt h => exact ⟨_, exchange_silent hfmt h, by simp, nofun⟩
  | bad hfit hne h =>
    rw [exchange_answer (format_of_fits hfit hne) hne hfit, takeRsp_bad h]
    exact ⟨_, rfl, by simp, nofun⟩
  | held hfit hne h hbusy hheld =>
    rw [exchange_answer (format_of_fits hfit hne) hne hfit, takeRsp_held h hbusy hheld]
    exact ⟨_, rfl, by simp only [raise_nowMs, advance_nowMs, storeRsp_nowMs, sendFrame_nowMs]; omega, nofun⟩
  | good hfit hne h hreleased =>
    rw [exchange_answer (format_of_fits hfit hne) hne hfit, takeRsp_good h hreleased]
    exact ⟨_, rfl, by simp, fun _ => ⟨_, rfl⟩⟩

namespace Verdict

/-! The verdicts on a checked 48-bit response. -/

theorem wrongCrc (hf : fmt.checksIndex = true) (h : ans.rsp = .rsp48 idx payload crc)
    (hcrc : crc ≠ rspCrc idx payload) : Verdict index fmt busy ans (some .rspCrc) 0 := by
  obtain ⟨h48, hc, -, -⟩ := checked_format hf
  exact .bad (h ▸ h48) (by simp [h]) (h ▸ checkRsp_wrongCrc hc hcrc)

theorem wrongIndex (hf : fmt.checksIndex = true) (h : ans.rsp = .rsp48 idx payload crc)
    (hcrc : crc = rspCrc idx payload) (hidx : idx ≠ index) : Verdict index fmt busy ans (some .cmdIndex) 0 := by
  subst hcrc
  exact .bad (h ▸ (checked_format hf).1) (by simp [h]) (h ▸ checkRsp_wrongIndex hf hidx)

theorem accepted (hf : fmt.checksIndex = true) (h : ans.rsp = goodRsp index payload)
    (hreleased : busy = true → ans.busyReleased = true) : Verdict index fmt busy ans none 0 :=
  .good (h ▸ (checked_format hf).1) (by simp [h, goodRsp]) (h ▸ checkRsp_goodRsp) hreleased

theorem unreleased (hf : fmt.checksIndex = true) (h : ans.rsp = goodRsp index payload) (hbusy : busy = true)
    (hheld : ans.busyReleased = false) : Verdict index fmt busy ans (some .dataTimeout) Config.tBusyMs :=
  .held (h ▸ (checked_format hf).1) (by simp [h, goodRsp]) (h ▸ checkRsp_goodRsp) hbusy hheld

/-- An OCR is taken as it is (R102). -/
theorem unchecked (hf : fmt = .r3) (hb : busy = false) (h : ans.rsp = .rsp48 idx payload crc) :
    Verdict index fmt busy ans none 0 := by
  subst hf hb
  exact .good (h ▸ rfl) (by simp [h]) (checkRsp_unchecked rfl rfl) nofun

/-- A register is judged by its own CRC alone (R94, R110). -/
theorem register (hf : fmt = .r2) (hb : busy = false) (h : ans.rsp = .rsp136 content) :
    Verdict index fmt busy ans (if regCrcGood content then none else some .rspCrc) 0 := by
  subst hf hb
  have hcheck : checkRsp index .r2 ans.rsp = if regCrcGood content then none else some .rspCrc := by
    rw [h, checkRsp_register]
  split_ifs at hcheck ⊢
  · exact .good (h ▸ rfl) (by simp [h]) hcheck nofun
  · exact .bad (h ▸ rfl) (by simp [h]) hcheck

end Verdict

end verdict

/-! ### From the clock to the command's own exchange -/

/-- Step 1 is done: the command is latched and its clock runs (R191). -/
abbrev clocked (c : Cmd) (a : Word) (s : State) : State :=
  selectClock c.descriptor.ls { s with cd := ⟨c.descriptor, a⟩ }

/-- What is left of `execute(c, a)` from `s` is its steps 3 to 6 from `u`, these frames having gone out: the APP_CMD of
an application command, after a good answer to it, and none of any other (R193). -/
structure Reaches (c : Cmd) (a : Word) (s u : State) (before : List Frame) : Prop where
  run  : executeCmd c a s = mainPhase c.descriptor a u
  sent : Sent (clocked c a s) u before

section reaches
variable {c : Cmd} {a w : Word} {s u v x : State} {before frames : List Frame} {k : Option FailKind} {n : Nat}
  {r : Refusal} {i : Instr}

/-- No row of the table has the write flag (R101). -/
theorem write_eq_false (c : Cmd) : c.descriptor.write = false := by
  cases c <;> rfl

theorem nextAnswer_of_sent (h : Sent (clocked c a s) u before) : nextAnswer u = answerAt s before.length := by
  rw [nextAnswer, answerAt, h.card, selectClock_card]

theorem reaches_plain (hc : c.descriptor.acmd = false) : Reaches c a s (clocked c a s) [] :=
  ⟨by simp [executeCmd, execute, write_eq_false, prefixPhase, hc], Sent.refl _⟩

/-- The exchange of an APP_CMD that goes first, on a judged answer (R193). -/
theorem appCmd_of_verdict (v : Verdict 55#6 .r1 false (answerAt s 0) k n) :
    ∃ t, exchange 55#6 (rcaArg s.session.rca) .r1 false (clocked c a s) = .ok (k, t) ∧
      Sent (clocked c a s) t [cmdFrame 55#6 (rcaArg s.session.rca)] ∧ (clocked c a s).nowMs + n ≤ t.nowMs := by
  rw [show answerAt s 0 = nextAnswer (clocked c a s) from (nextAnswer_of_sent (.refl _)).symm] at v
  obtain ⟨t, hx, htime, -⟩ := exchange_of_verdict (a := rcaArg s.session.rca) v
  exact ⟨t, hx, (sent_exchange hx).1, htime⟩

theorem reaches_prefixed (hc : c.descriptor.acmd = true) (hd : c.descriptor.data = false)
    (h : (answerAt s 0).rsp = goodRsp 55#6 w) :
    ∃ u, Reaches c a s u [cmdFrame 55#6 (rcaArg s.session.rca)] := by
  obtain ⟨u, hx, hsent, -⟩ := appCmd_of_verdict (c := c) (a := a) (.accepted rfl h nofun)
  refine ⟨u, ?_, hsent⟩
  have hs : (clocked c a s).session = s.session := (frame_selectClock _ _).session
  have hp : prefixPhase true (clocked c a s) = .ok (none, u) := by
    rw [← hx, ← hs]
    rfl
  simp [executeCmd, execute, write_eq_false, hd, hc, hp]

/-! ### Steps 3 to 6 -/

theorem mainPhase_done (hx : exchange c.descriptor.index a c.descriptor.rsp c.descriptor.busy u = .ok (k, v))
    (hk : k = none → c.descriptor.data = false) : mainPhase c.descriptor a u = .ok (finish c.descriptor k v) := by
  cases k with
  | none => simp [mainPhase, hx, hk rfl]
  | some e => simp [mainPhase, hx]

theorem mainPhase_data (hx : exchange c.descriptor.index a c.descriptor.rsp c.descriptor.busy u = .ok (none, v))
    (hd : c.descriptor.data = true) (hy : dataPhase (nextAnswer u).data v = .ok (k, x)) :
    mainPhase c.descriptor a u = .ok (finish c.descriptor k x) := by
  simp [mainPhase, hx, hd, hy]

theorem mainPhase_dataRefused (hx : exchange c.descriptor.index a c.descriptor.rsp c.descriptor.busy u = .ok (none, v))
    (hd : c.descriptor.data = true) (hy : dataPhase (nextAnswer u).data v = .error r) :
    mainPhase c.descriptor a u = .error r := by
  simp [mainPhase, hx, hd, hy]

theorem mainPhase_refused (hx : exchange c.descriptor.index a c.descriptor.rsp c.descriptor.busy u = .error r) :
    mainPhase c.descriptor a u = .error r := by
  simp [mainPhase, hx]

/-! ### The end of a command -/

/-- A command that ended in `finish` has done what `CommandDone` says, with the frames of its exchanges. -/
theorem commandDone_of_finish (hx : executeCmd c a s = .ok (finish c.descriptor k u))
    (h : Sent (clocked c a s) u frames) :
    CommandDone s { (finish c.descriptor k u).2 with result := .status (statusOf k) } frames c.descriptor.ls
      (statusOf k) := by
  have hdone : Executed c.descriptor a s (finish c.descriptor k u).2 := executed_of_executeCmd hx
  obtain ⟨-, -, -, -, -, hwire, hcard, -, -⟩ := finish_spec c.descriptor k u
  exact
    { frame := hdone.frame.trans (by constructor <;> rfl)
      wire := by simp [hwire, h.wire]
      card := by simp [hcard, h.card]
      flags := hdone.flags
      clkRun := hdone.clkRun
      clock := hdone.clock
      time := hdone.time
      status := rfl }

/-- A command has ended with this failure, or none: it took at least `n` milliseconds, only the buffer of the cache can
have changed and only by a data command, and a good response is in `RB` (R111, R200 to R203). -/
structure Ended (c : Cmd) (s : State) (frames : List Frame) (k : Option FailKind) (n : Nat) (rsp : Rsp) (t : State) :
    Prop where
  done  : CommandDone s t frames c.descriptor.ls (statusOf k)
  base  : t.cache.base = s.cache.base
  cache : c.descriptor.data = false → t.cache = s.cache
  time  : s.nowMs + n ≤ t.nowMs
  rb    : k = none → ∃ pad, t.rb = assembleRb pad rsp

theorem ended_of_finish {rsp : Rsp} (hx : executeCmd c a s = .ok (finish c.descriptor k u))
    (h : Sent (clocked c a s) u frames) (htime : (clocked c a s).nowMs + n ≤ u.nowMs)
    (hrb : k = none → c.descriptor.rsp ≠ .none ∧ ∃ pad, u.rb = assembleRb pad rsp) :
    Ended c s frames k n rsp { (finish c.descriptor k u).2 with result := .status (statusOf k) } := by
  have hdone : Executed c.descriptor a s (finish c.descriptor k u).2 := executed_of_executeCmd hx
  obtain ⟨-, -, -, -, -, -, -, -, hnow⟩ := finish_spec c.descriptor k u
  have hclock : s.nowMs ≤ (clocked c a s).nowMs := selectClock_time _ { s with cd := ⟨c.descriptor, a⟩ }
  refine ⟨commandDone_of_finish hx h, hdone.base, hdone.cache, ?_, ?_⟩
  · show _ ≤ (finish c.descriptor k u).2.nowMs
    omega
  · rintro rfl
    obtain ⟨hrsp, hpad⟩ := hrb rfl
    rwa [finish_ok _ _ hrsp]

/-- A command whose exchange is judged ends so, unless a data phase is still to come. -/
theorem executeCmd_of_verdict (hr : Reaches c a s u before)
    (v : Verdict c.descriptor.index c.descriptor.rsp c.descriptor.busy (answerAt s before.length) k n)
    (hk : k = none → c.descriptor.data = false) :
    ∃ t, executeCmd c a s = .ok (statusOf k, t) ∧
      Ended c s (before ++ [cmdFrame c.descriptor.index a]) k n (answerAt s before.length).rsp
        { t with result := .status (statusOf k) } := by
  rw [← nextAnswer_of_sent hr.sent] at v ⊢
  obtain ⟨x, hx, htime, hrb⟩ := exchange_of_verdict (a := a) v
  have run := hr.run.trans (mainPhase_done hx hk)
  refine ⟨_, run, ended_of_finish run (hr.sent.trans (sent_exchange hx).1) ?_ ?_⟩
  · have := hr.sent.time
    omega
  · rintro rfl
    cases v with
    | good hfit hne => exact ⟨format_of_fits hfit hne, hrb rfl⟩

/-- A response of the other length is refused (R112). -/
theorem executeCmd_misfit (hr : Reaches c a s u before) (hfmt : c.descriptor.rsp ≠ .none)
    (h : (answerAt s before.length).rsp.fits c.descriptor.rsp = false) : executeCmd c a s = .error .answerLength := by
  rw [← nextAnswer_of_sent hr.sent] at h
  have hne : (nextAnswer u).rsp ≠ .noResponse := fun hn => by simp [hn, Rsp.fits] at h
  exact hr.run.trans (mainPhase_refused (exchange_misfit hfmt hne h))

/-! ### As the instruction -/

theorem exec_of_executeCmd (hi : cmdOf i = some (c, a)) (hd : c.descriptor.data = false) :
    exec i s = deliver .status (executeCmd c a s) := by
  rw [exec_of_cmdOf hi, if_neg]
  rintro rfl
  cases hd

theorem completes_mono {P Q : State → Prop} (h : Completes i s P) (hPQ : ∀ t, P t → Q t) : Completes i s Q := by
  obtain ⟨t, ht, hp⟩ := h
  exact ⟨t, ht, hPQ t hp⟩

end reaches

/-! ### The clauses of the statements -/

section clauses
variable {i : Instr} {c : Cmd} {a w : Word} {s u : State} {before frames : List Frame} {k : Option FailKind} {n : Nat}
  {ans : Answer} {index : BitVec 6} {ls : Bool} {fmt : RspFormat} {busy : Bool} {content : Reg128}

theorem completes_of_verdict (hi : cmdOf i = some (c, a)) (hd : c.descriptor.data = false) (hr : Reaches c a s u before)
    (v : Verdict c.descriptor.index c.descriptor.rsp c.descriptor.busy (answerAt s before.length) k n) :
    Completes i s
      (Ended c s (before ++ [cmdFrame c.descriptor.index a]) k n (answerAt s before.length).rsp) := by
  obtain ⟨t, hx, ht⟩ := executeCmd_of_verdict hr v fun _ => hd
  exact ⟨_, by rw [exec_of_executeCmd hi hd, hx]; rfl, ht⟩

theorem refused_of_misfit (hi : cmdOf i = some (c, a)) (hd : c.descriptor.data = false) (hr : Reaches c a s u before)
    (hfmt : c.descriptor.rsp ≠ .none) (h : (answerAt s before.length).rsp.fits c.descriptor.rsp = false) :
    exec i s = .refused .answerLength := by
  rw [exec_of_executeCmd hi hd, executeCmd_misfit hr hfmt h]
  rfl

/-- A response that does not come ends the command in `Timeout`, after `T_CMD_MS` (R203). -/
theorem completes_silent (hi : cmdOf i = some (c, a)) (hd : c.descriptor.data = false) (hr : Reaches c a s u before)
    (hfmt : c.descriptor.rsp ≠ .none) (h : (answerAt s before.length).rsp = .noResponse) :
    Completes i s fun t =>
      CommandDone s t (before ++ [cmdFrame c.descriptor.index a]) c.descriptor.ls .timeout ∧ t.cache = s.cache ∧
      s.nowMs + Config.tCmdMs ≤ t.nowMs :=
  completes_mono (completes_of_verdict hi hd hr (.silent hfmt h)) fun _ e => ⟨e.done, e.cache hd, e.time⟩

/-- How an instruction ends on an answer that a checked exchange for `index` does not accept (R110, R112, R296). -/
structure FailsAsAnswered (i : Instr) (s : State) (ans : Answer) (index : BitVec 6) (frames : List Frame) (ls : Bool) :
    Prop where
  silent : ans.rsp = .noResponse → Completes i s fun t =>
    CommandDone s t frames ls .timeout ∧ t.cache = s.cache ∧ s.nowMs + Config.tCmdMs ≤ t.nowMs
  wrongCrc : ∀ {idx payload crc}, ans.rsp = .rsp48 idx payload crc → crc ≠ rspCrc idx payload →
    Completes i s fun t => CommandDone s t frames ls .crcError ∧ t.cache = s.cache
  wrongIndex : ∀ {idx payload crc}, ans.rsp = .rsp48 idx payload crc → crc = rspCrc idx payload → idx ≠ index →
    Completes i s fun t => CommandDone s t frames ls .commandError ∧ t.cache = s.cache
  misfit : ∀ content, ans.rsp = .rsp136 content → exec i s = .refused .answerLength

/-- It is enough to know how it ends on a failing verdict, and that a response of the wrong length is refused. -/
theorem failsAsAnswered_of_verdict (hf : fmt.checksIndex = true) (hd : c.descriptor.data = false)
    (run : ∀ {e n}, Verdict index fmt busy ans (some e) n → Completes i s (Ended c s frames (some e) n ans.rsp))
    (misfit : ans.rsp.fits fmt = false → exec i s = .refused .answerLength) :
    FailsAsAnswered i s ans index frames c.descriptor.ls := by
  obtain ⟨-, -, hfmt, hreg⟩ := checked_format hf
  exact
    { silent h := completes_mono (run (.silent hfmt h)) fun _ e => ⟨e.done, e.cache hd, e.time⟩
      wrongCrc h hcrc := completes_mono (run (.wrongCrc hf h hcrc)) fun _ e => ⟨e.done, e.cache hd⟩
      wrongIndex h hcrc hidx := completes_mono (run (.wrongIndex hf h hcrc hidx)) fun _ e => ⟨e.done, e.cache hd⟩
      misfit _ h := misfit (by simp [h, Rsp.fits, hreg]) }

/-- A command with a checked response fails as the answer to its own frame says. -/
theorem failsAsAnswered_command (hi : cmdOf i = some (c, a)) (hd : c.descriptor.data = false)
    (hr : Reaches c a s u before) (hf : c.descriptor.rsp.checksIndex = true) :
    FailsAsAnswered i s (answerAt s before.length) c.descriptor.index (before ++ [cmdFrame c.descriptor.index a])
      c.descriptor.ls :=
  failsAsAnswered_of_verdict hf hd (completes_of_verdict hi hd hr)
    (refused_of_misfit hi hd hr (checked_format hf).2.2.1)

/-- An application command whose APP_CMD fails, fails as the answer to that says (R193). -/
theorem failsAsAnswered_appCmd (hi : cmdOf i = some (c, a)) (hc : c.descriptor.acmd = true)
    (hd : c.descriptor.data = false) :
    FailsAsAnswered i s (answerAt s 0) 55#6 [cmdFrame 55#6 (rcaArg s.session.rca)] c.descriptor.ls := by
  refine failsAsAnswered_of_verdict (fmt := .r1) (busy := false) rfl hd (fun v => ?_) (fun hfit => ?_)
  · obtain ⟨t, hx, hsent, htime⟩ := appCmd_of_verdict (c := c) (a := a) v
    have run : executeCmd c a s = .ok (finish c.descriptor _ t) := execute_prefix_fails (write_eq_false c) hd hc hx
    exact ⟨_, by rw [exec_of_executeCmd hi hd, run]; rfl, ended_of_finish run hsent htime nofun⟩
  · rw [← show nextAnswer (clocked c a s) = answerAt s 0 from nextAnswer_of_sent (.refl _)] at hfit
    have hx := exchange_misfit (i := 55#6) (a := rcaArg s.session.rca) (b := false) (fmt := .r1) nofun
      (fun hn => by simp [hn, Rsp.fits] at hfit) hfit
    have run : executeCmd c a s = .error .answerLength := execute_prefix_misfit (write_eq_false c) hd hc hx
    rw [exec_of_executeCmd hi hd, run]
    rfl

/-- A good response ends a checked command `Ok`, once busy is released, with the payload in `RB` twice (R111). -/
theorem completes_accepted (hi : cmdOf i = some (c, a)) (hd : c.descriptor.data = false) (hr : Reaches c a s u before)
    (hf : c.descriptor.rsp.checksIndex = true) (h : (answerAt s before.length).rsp = goodRsp c.descriptor.index w)
    (hreleased : c.descriptor.busy = true → (answerAt s before.length).busyReleased = true) :
    Completes i s fun t =>
      CommandDone s t (before ++ [cmdFrame c.descriptor.index a]) c.descriptor.ls .ok ∧ t.cache = s.cache ∧
      be32 t.rb.toList 0 = w ∧ be32 t.rb.toList 8 = w := by
  refine completes_mono (completes_of_verdict hi hd hr (.accepted hf h hreleased)) fun t e => ?_
  obtain ⟨pad, hpad⟩ := e.rb rfl
  rw [h, goodRsp] at hpad
  exact ⟨e.done, e.cache hd, by rw [hpad, be32_assembleRb], by rw [hpad, be32_assembleRb_again]⟩

/-- A busy that is not released ends the command in `Timeout`, after `T_BUSY_MS` (R197, R203). -/
theorem completes_unreleased (hi : cmdOf i = some (c, a)) (hd : c.descriptor.data = false) (hr : Reaches c a s u before)
    (hf : c.descriptor.rsp.checksIndex = true) (h : (answerAt s before.length).rsp = goodRsp c.descriptor.index w)
    (hbusy : c.descriptor.busy = true) (hheld : (answerAt s before.length).busyReleased = false) :
    Completes i s fun t =>
      CommandDone s t (before ++ [cmdFrame c.descriptor.index a]) c.descriptor.ls .timeout ∧ t.cache = s.cache ∧
      s.nowMs + Config.tBusyMs ≤ t.nowMs :=
  completes_mono (completes_of_verdict hi hd hr (.unreleased hf h hbusy hheld))
    fun _ e => ⟨e.done, e.cache hd, e.time⟩

/-- A register with a good CRC is in `RB` (R111), one with another CRC ends the command in `CrcError`. -/
theorem completes_register (hi : cmdOf i = some (c, a)) (hd : c.descriptor.data = false) (hr : Reaches c a s u before)
    (hf : c.descriptor.rsp = .r2) (hb : c.descriptor.busy = false)
    (h : (answerAt s before.length).rsp = .rsp136 content) :
    Completes i s fun t =>
      CommandDone s t (before ++ [cmdFrame c.descriptor.index a]) c.descriptor.ls
        (if regCrcGood content then .ok else .crcError) ∧
      t.cache = s.cache ∧ (regCrcGood content = true → t.rb = regBytes content) := by
  refine completes_mono (completes_of_verdict hi hd hr (.register hf hb h)) fun t e => ⟨?_, e.cache hd, fun hgood => ?_⟩
  · convert e.done
    split_ifs <;> rfl
  · obtain ⟨pad, hpad⟩ := e.rb (if_pos hgood)
    rw [hpad, h]
    rfl

/-- The two commands that take an OCR do so from any 48-bit response (R102, R162, R174). -/
theorem ocrCommand_follows_answer (hi : cmdOf i = some (c, a)) (hd : c.descriptor.data = false)
    (hr : Reaches c a s u before) (hf : c.descriptor.rsp = .r3) (hb : c.descriptor.busy = false) :
    ((answerAt s before.length).rsp = .noResponse →
      Completes i s fun t =>
        CommandDone s t (before ++ [cmdFrame c.descriptor.index a]) c.descriptor.ls .timeout ∧ t.cache = s.cache ∧
        s.nowMs + Config.tCmdMs ≤ t.nowMs) ∧
    (∀ idx payload crc, (answerAt s before.length).rsp = .rsp48 idx payload crc →
      Completes i s fun t =>
        CommandDone s t (before ++ [cmdFrame c.descriptor.index a]) c.descriptor.ls .ok ∧ t.cache = s.cache ∧
        decodeOcr t.rb = payload) ∧
    (∀ content, (answerAt s before.length).rsp = .rsp136 content → exec i s = .refused .answerLength) := by
  have hfmt : c.descriptor.rsp ≠ .none := by simp [hf]
  refine ⟨completes_silent hi hd hr hfmt, fun idx payload crc h => ?_, fun content h => ?_⟩
  · refine completes_mono (completes_of_verdict hi hd hr (.unchecked hf hb h)) fun t e => ?_
    obtain ⟨pad, hpad⟩ := e.rb rfl
    exact ⟨e.done, e.cache hd, by rw [hpad, h, decodeOcr_assembleRb]⟩
  · exact refused_of_misfit hi hd hr hfmt (by simp [h, hf, Rsp.fits])

end clauses

/-! ### The statements about commands without a data phase -/

/-- A command that expects no response runs to `Ok`, whatever the card does (R192). -/
theorem completes_without_response {i : Instr} {c : Cmd} {a : Word} (s : State) (hi : cmdOf i = some (c, a))
    (hd : c.descriptor.data = false) (hc : c.descriptor.acmd = false) (hf : c.descriptor.rsp = .none) :
    Completes i s fun t =>
      CommandDone s t [cmdFrame c.descriptor.index a] c.descriptor.ls .ok ∧ t.cache = s.cache := by
  have hx := exchange_none (i := c.descriptor.index) (a := a) (b := c.descriptor.busy) (s := clocked c a s) hf
  have run := (reaches_plain hc).run.trans (mainPhase_done hx fun _ => hd)
  refine ⟨_, by rw [exec_of_executeCmd hi hd, run]; rfl, commandDone_of_finish run (sent_exchange hx).1, ?_⟩
  exact (executed_of_executeCmd run).cache hd

/-- Settles O20, by `completes_without_response` for its two rows. -/
theorem commandsWithoutResponseSucceed : Obligations.CommandsWithoutResponseSucceed :=
  fun s => ⟨completes_without_response (c := .goIdleState) s rfl rfl rfl rfl,
    completes_without_response (c := .deselectCard) s rfl rfl rfl rfl⟩

/-- Settles O21, by `ocrCommand_follows_answer` for CMD1. -/
theorem sendOpCondTakesTheOcrUnchecked : Obligations.SendOpCondTakesTheOcrUnchecked :=
  fun _ _ => ocrCommand_follows_answer (c := .sendOpCond) rfl rfl (reaches_plain rfl) rfl rfl

/-- The rows of CMD2 and CMD9. -/
theorem registerRow {arg : Word} {i : Instr} {index : BitVec 6} {a : Word}
    (h : (i, index, a) ∈ [(Instr.allSendCid, 2#6, 0#32), (Instr.sendCsd arg, 9#6, arg)]) :
    ∃ c, cmdOf i = some (c, a) ∧ c.descriptor = ⟨index, .r2, true, false, false, false, false⟩ := by
  simp only [List.mem_cons, Prod.mk.injEq, List.not_mem_nil, or_false] at h
  obtain ⟨rfl, rfl, rfl⟩ | ⟨rfl, rfl, rfl⟩ := h
  · exact ⟨.allSendCid, rfl, rfl⟩
  · exact ⟨.sendCsd, rfl, rfl⟩

/-- The rows of the commands with a checked response and no busy wait. -/
theorem checkedRow {arg : Word} {i : Instr} {index : BitVec 6} {a : Word} {ls : Bool}
    (h : (i, index, a, ls) ∈
      [(Instr.setRelativeAddr, 3#6, 0x00010000#32, true), (Instr.sendRelativeAddr, 3#6, 0#32, true),
        (Instr.sendIfCond, 8#6, 0x000001AA#32, true), (Instr.setBlocklen, 16#6, 512#32, false),
        (Instr.appCmd arg, 55#6, arg, false)]) :
    ∃ c fmt, cmdOf i = some (c, a) ∧ fmt.checksIndex = true ∧
      c.descriptor = ⟨index, fmt, ls, false, false, false, false⟩ := by
  simp only [List.mem_cons, Prod.mk.injEq, List.not_mem_nil, or_false] at h
  obtain ⟨rfl, rfl, rfl, rfl⟩ | ⟨rfl, rfl, rfl, rfl⟩ | ⟨rfl, rfl, rfl, rfl⟩ | ⟨rfl, rfl, rfl, rfl⟩ |
    ⟨rfl, rfl, rfl, rfl⟩ := h
  · exact ⟨.setRelativeAddr, .r1, rfl, rfl, rfl⟩
  · exact ⟨.sendRelativeAddr, .r6, rfl, rfl, rfl⟩
  · exact ⟨.sendIfCond, .r7, rfl, rfl, rfl⟩
  · exact ⟨.setBlocklen, .r1, rfl, rfl, rfl⟩
  · exact ⟨.appCmd, .r1, rfl, rfl, rfl⟩

/-- The rows of CMD7 and CMD12. -/
theorem busyRow {arg : Word} {i : Instr} {index : BitVec 6} {a : Word}
    (h : (i, index, a) ∈ [(Instr.selectCard arg, 7#6, arg), (Instr.stopTransmission, 12#6, 0#32)]) :
    ∃ c, cmdOf i = some (c, a) ∧ c.descriptor = ⟨index, .r1b, false, false, false, false, true⟩ := by
  simp only [List.mem_cons, Prod.mk.injEq, List.not_mem_nil, or_false] at h
  obtain ⟨rfl, rfl, rfl⟩ | ⟨rfl, rfl, rfl⟩ := h
  · exact ⟨.selectCard, rfl, rfl⟩
  · exact ⟨.stopTransmission, rfl, rfl⟩

/-- Settles O22: the check of a register is that of its CRC (`checkRsp_register`). -/
theorem registerCommandsStoreTheRegister : Obligations.RegisterCommandsStoreTheRegister := by
  intro s arg i index a hrow
  obtain ⟨c, hi, hc⟩ := registerRow hrow
  have hr : Reaches c a s (clocked c a s) [] := reaches_plain (by rw [hc])
  have hd : c.descriptor.data = false := by rw [hc]
  have silent := completes_silent hi hd hr (by simp [hc])
  have register {content} := completes_register (content := content) hi hd hr (by rw [hc]) (by rw [hc])
  have misfit := refused_of_misfit hi hd hr (by simp [hc])
  simp only [hc] at silent register misfit
  refine ⟨silent, fun content h => ⟨fun hgood => ?_, fun hbad => ?_⟩, fun idx payload crc h => misfit (h ▸ rfl)⟩
  · refine completes_mono (register h) fun t ⟨hdone, hcache, hrb⟩ => ⟨?_, hcache, hrb hgood⟩
    simpa [hgood] using hdone
  · refine completes_mono (register h) fun t ⟨hdone, hcache, _⟩ => ⟨?_, hcache⟩
    simpa [hbad] using hdone

/-- Settles O23, by `failsAsAnswered_command` and `completes_accepted`. -/
theorem checkedCommandsFollowTheirAnswer : Obligations.CheckedCommandsFollowTheirAnswer := by
  intro s arg i index a ls hrow
  obtain ⟨c, fmt, hi, hf, hc⟩ := checkedRow hrow
  have hr : Reaches c a s (clocked c a s) [] := reaches_plain (by rw [hc])
  have hd : c.descriptor.data = false := by rw [hc]
  have fails := failsAsAnswered_command hi hd hr (by rw [hc]; exact hf)
  have accepted {w} := completes_accepted (w := w) hi hd hr (by rw [hc]; exact hf)
  simp only [hc] at fails accepted
  refine ⟨fails.silent, fun idx payload crc h => ⟨fails.wrongCrc h, fails.wrongIndex h, ?_⟩, fails.misfit⟩
  rintro rfl rfl
  exact accepted h nofun

/-- Settles O24: as the checked commands, and then the wait for busy. -/
theorem busyCommandsWaitForRelease : Obligations.BusyCommandsWaitForRelease := by
  intro s arg i index a hrow
  obtain ⟨c, hi, hc⟩ := busyRow hrow
  have hr : Reaches c a s (clocked c a s) [] := reaches_plain (by rw [hc])
  have hd : c.descriptor.data = false := by rw [hc]
  have fails := failsAsAnswered_command hi hd hr (by rw [hc]; rfl)
  have accepted {w} := completes_accepted (w := w) hi hd hr (by rw [hc]; rfl)
  have unreleased {w} := completes_unreleased (w := w) hi hd hr (by rw [hc]; rfl)
  simp only [hc] at fails accepted unreleased
  refine ⟨fails.silent, fun idx payload crc h => ⟨fails.wrongCrc h, fails.wrongIndex h, ?_, ?_⟩, fails.misfit⟩
  · rintro rfl rfl hreleased
    exact accepted h fun _ => hreleased
  · rintro rfl rfl hheld
    exact unreleased h trivial hheld

/-- Settles O25, by `failsAsAnswered_appCmd` for the two application commands. -/
theorem failedPrefixEndsTheApplicationCommand : Obligations.FailedPrefixEndsTheApplicationCommand := by
  intro s arg i ls hrow
  have fails : FailsAsAnswered i s (answerAt s 0) 55#6 [cmdFrame 55#6 (rcaArg s.session.rca)] ls := by
    simp only [List.mem_cons, Prod.mk.injEq, List.not_mem_nil, or_false] at hrow
    obtain ⟨rfl, rfl⟩ | ⟨rfl, rfl⟩ := hrow
    · exact failsAsAnswered_appCmd (c := .setBusWidth) rfl rfl rfl
    · exact failsAsAnswered_appCmd (c := .sdSendOpCond) rfl rfl rfl
  exact ⟨fails.silent, fun _ _ _ h => ⟨fails.wrongCrc h, fails.wrongIndex h⟩, fails.misfit⟩

/-- Settles O26: past its APP_CMD SET_BUS_WIDTH is a checked command. -/
theorem setBusWidthSendsThePair : Obligations.SetBusWidthSendsThePair := by
  intro s w happ
  obtain ⟨u, hr⟩ := reaches_prefixed (c := .setBusWidth) (a := Config.busWidthArg) rfl rfl happ
  have fails := failsAsAnswered_command (i := .setBusWidth) rfl rfl hr rfl
  refine ⟨fails.silent, fun idx payload crc h => ⟨fails.wrongCrc h, fails.wrongIndex h, ?_⟩, fails.misfit⟩
  rintro rfl rfl
  exact completes_mono (completes_accepted (i := .setBusWidth) rfl rfl hr rfl h nofun)
    fun t ⟨hdone, hcache, hpayload, _⟩ => ⟨hdone, hcache, hpayload⟩

/-- Settles O27: past its APP_CMD SD_SEND_OP_COND takes the OCR as SEND_OP_COND does. -/
theorem sdSendOpCondSendsThePair : Obligations.SdSendOpCondSendsThePair := by
  intro s arg w happ
  obtain ⟨u, hr⟩ := reaches_prefixed (c := .sdSendOpCond) (a := arg) rfl rfl happ
  exact ocrCommand_follows_answer (c := .sdSendOpCond) rfl rfl hr rfl rfl

end Sys2Proof.Proofs

/-! SUPPORT. The data phase, and READ_SINGLE_BLOCK with its care for the cache; the statuses of the rows. -/

namespace Sys2Proof.Proofs

open Sys2Proof.Machine Sys2Proof.Laws

/-! ### The data phase, answer by answer (R198) -/

section dataPhase
variable {ans : DataAns} {bytes : Block} {s : State}

theorem dataPhase_silent (h : ans = .noData) :
    dataPhase ans s = .ok (some .dataTimeout, raise .dataTimeout (s.advance Config.tDataMs)) := by
  subst h
  rfl

theorem dataPhase_misfit (h : ans.fits s.busWide = false) : dataPhase ans s = .error .dataFormat := by
  simp [dataPhase, h]

theorem dataPhase_corrupt (hfit : ans.fits s.busWide = true) (h : ans.crcGood = false) :
    ∃ t, dataPhase ans s = .ok (some .dataCrc, t) := by
  cases ans with
  | noData => cases h
  | data | data4 => exact ⟨_, by rw [dataPhase, if_pos hfit]; simp only [takeData, h]; rfl⟩

theorem crcGood_of_delivers (h : ans.delivers bytes) : ans.crcGood = true := by
  obtain rfl | ⟨c3, c2, c1, c0, rfl, hcrc⟩ := h
  · exact decide_eq_true rfl
  · exact decide_eq_true hcrc

theorem dataPhase_delivers (hfit : ans.fits s.busWide = true) (h : ans.delivers bytes) :
    dataPhase ans s = .ok (none, storeData bytes (s.advance 0)) := by
  have hgood := crcGood_of_delivers h
  obtain rfl | ⟨c3, c2, c1, c0, rfl, -⟩ := h <;>
    simp [dataPhase, hfit, takeData, hgood]

end dataPhase

/-! ### READ_SINGLE_BLOCK -/

section read
variable {s t v x : State} {addr payload : Word} {k : Option FailKind} {e : FailKind} {n : Nat} {bytes : Block}
  {r : Refusal} {frames : List Frame} {ls : Bool} {st : Status} {rsp : Rsp}

/-- The response to CMD17 was good: what is left is the data phase in `v` (R192, R198). -/
structure AwaitsData (addr payload : Word) (s v : State) : Prop where
  run     : ∀ {k x}, dataPhase (answerAt s 0).data v = .ok (k, x) →
    executeCmd .readSingleBlock addr s = .ok (finish Cmd.readSingleBlock.descriptor k x)
  refused : ∀ {r}, dataPhase (answerAt s 0).data v = .error r → executeCmd .readSingleBlock addr s = .error r
  sent    : Sent (clocked .readSingleBlock addr s) v [cmdFrame 17#6 addr]
  rb      : ∃ pad, v.rb = assembleRb pad (goodRsp 17#6 payload)

theorem awaitsData_of_response (h : (answerAt s 0).rsp = goodRsp 17#6 payload) : ∃ v, AwaitsData addr payload s v := by
  have hr : Reaches .readSingleBlock addr s _ [] := reaches_plain rfl
  have hans : nextAnswer (clocked .readSingleBlock addr s) = answerAt s 0 := nextAnswer_of_sent hr.sent
  obtain ⟨v, hx, -, hrb⟩ := exchange_of_verdict (s := clocked .readSingleBlock addr s) (index := 17#6) (fmt := .r1)
    (busy := false) (a := addr) (.accepted rfl (hans ▸ h) nofun)
  rw [hans, h] at hrb
  exact ⟨v, fun hy => hr.run.trans (mainPhase_data hx rfl (hans ▸ hy)),
    fun hy => hr.run.trans (mainPhase_dataRefused hx rfl (hans ▸ hy)), (sent_exchange hx).1, hrb rfl⟩

theorem AwaitsData.busWide (h : AwaitsData addr payload s v) : v.busWide = s.busWide :=
  h.sent.frame.busWide.trans (frame_selectClock _ _).busWide

/-- The end of the data phase is the end of the command. -/
theorem AwaitsData.ended (h : AwaitsData addr payload s v) (hy : dataPhase (answerAt s 0).data v = .ok (k, x))
    (htime : v.nowMs + n ≤ x.nowMs) (hrb : k = none → x.rb = v.rb) :
    Ended .readSingleBlock s [cmdFrame 17#6 addr] k n (goodRsp 17#6 payload)
      { (finish Cmd.readSingleBlock.descriptor k x).2 with result := .status (statusOf k) } := by
  refine ended_of_finish (h.run hy) (h.sent.trans (sent_dataPhase hy)) ?_ fun hk => ⟨nofun, hrb hk ▸ h.rb⟩
  have := h.sent.time
  omega

/-! The cache around it (R31, R172, R269; assumption log 10). -/

/-- `CommandDone` does not speak of the cache. -/
theorem commandDone_of_cache {y z : Cache} (h : CommandDone { s with cache := y } t frames ls st) :
    CommandDone s { t with cache := z } frames ls st :=
  have hs : CommandFrame s { s with cache := y } := by constructor <;> rfl
  have ht : CommandFrame t { t with cache := z } := by constructor <;> rfl
  { frame := (hs.trans h.frame).trans ht
    wire := h.wire
    card := h.card
    flags := h.flags
    clkRun := h.clkRun
    clock := h.clock
    time := h.time
    status := h.status }

/-- READ_SINGLE_BLOCK has failed with this status, and the cache is empty (R269). -/
def ReadFailed (s : State) (addr : Word) (st : Status) (t : State) : Prop :=
  CommandDone s t [cmdFrame 17#6 addr] false st ∧ t.cache.base = Config.cacheInvalid

/-- READ_SINGLE_BLOCK has read these bytes: the cache is the window of the block, with a card acquired and an aligned
address, and empty otherwise (R31, R269). -/
def BlockRead (s : State) (addr payload : Word) (bytes : Block) (t : State) : Prop :=
  CommandDone s t [cmdFrame 17#6 addr] false .ok ∧ t.cache.buf = bytes ∧
  (s.session.acquired = true → addr &&& 0x1FF#32 = 0#32 → t.cache.base = addr) ∧
  (s.session.acquired = false ∨ addr &&& 0x1FF#32 ≠ 0#32 → t.cache.base = Config.cacheInvalid) ∧
  be32 t.rb.toList 0 = payload

theorem read_refused (h : executeCmd .readSingleBlock addr (cacheInvalidate s) = .error r) :
    exec (.readSingleBlock addr) s = .refused r := by
  show deliver .status (readIntoCache addr s) = _
  rw [readIntoCache, h]
  rfl

/-- After a failure the cache is empty. -/
theorem read_failed (h : executeCmd .readSingleBlock addr (cacheInvalidate s) = .ok (statusOf (some e), t))
    (hend : Ended .readSingleBlock (cacheInvalidate s) [cmdFrame 17#6 addr] (some e) n rsp
      { t with result := .status (statusOf (some e)) }) :
    Completes (.readSingleBlock addr) s fun t => ReadFailed s addr (statusOf (some e)) t ∧ s.nowMs + n ≤ t.nowMs := by
  have hst : statusOf (some e) ≠ .ok := by cases e <;> decide
  refine ⟨{ t with result := .status (statusOf (some e)) }, ?_, ⟨commandDone_of_cache hend.done, hend.base⟩, hend.time⟩
  show deliver .status (readIntoCache addr s) = _
  rw [readIntoCache, h]
  simp [hst, deliver]

/-- A verdict that is a failure ends READ_SINGLE_BLOCK before its data phase. -/
theorem read_failed_of_verdict (v : Verdict 17#6 .r1 false (answerAt s 0) (some e) n) :
    Completes (.readSingleBlock addr) s fun t => ReadFailed s addr (statusOf (some e)) t ∧ s.nowMs + n ≤ t.nowMs := by
  have hr : Reaches .readSingleBlock addr (cacheInvalidate s) _ [] := reaches_plain rfl
  obtain ⟨t, hx, hend⟩ := executeCmd_of_verdict hr v nofun
  exact read_failed hx hend

theorem blockBase_eq_self_iff (a : Word) : blockBase a = a ↔ a &&& 0x1FF#32 = 0#32 := by
  rw [aligned_iff_mod, BitVec.toNat_eq, toNat_blockBase]
  omega

/-- After a good block the cache is its window, with a card acquired and an aligned address. -/
theorem read_filled (h : executeCmd .readSingleBlock addr (cacheInvalidate s) = .ok (.ok, t))
    (hend : Ended .readSingleBlock (cacheInvalidate s) [cmdFrame 17#6 addr] none n (goodRsp 17#6 payload)
      { t with result := .status .ok }) (hbuf : t.cache.buf = bytes) :
    Completes (.readSingleBlock addr) s (BlockRead s addr payload bytes) := by
  obtain ⟨hdone, hbase, -, -, hrb⟩ := hend
  obtain ⟨pad, hpad⟩ := hrb rfl
  have hpayload : be32 t.rb.toList 0 = payload := by
    rw [show t.rb = _ from hpad, goodRsp, be32_assembleRb]
  have hacq : t.session.acquired = s.session.acquired := congrArg Session.acquired hdone.frame.session
  have hexec : exec (.readSingleBlock addr) s = .next
      { (if s.session.acquired = true ∧ addr &&& 0x1FF#32 = 0#32 then cacheFill addr t else t) with
        result := .status .ok } := by
    show deliver .status (readIntoCache addr s) = _
    rw [readIntoCache, h]
    simp [deliver, hacq, blockBase_eq_self_iff]
  refine ⟨_, hexec, ?_⟩
  split_ifs with hwindow
  · obtain ⟨ha, halign⟩ := hwindow
    refine ⟨commandDone_of_cache hdone, hbuf, fun _ _ => rfl, ?_, hpayload⟩
    simp [ha, halign]
  · exact ⟨commandDone_of_cache hdone, hbuf, fun ha halign => absurd ⟨ha, halign⟩ hwindow, fun _ => hbase, hpayload⟩

/-- A data frame that delivers its bytes, of the form of the bus width, fills the buffer. -/
theorem read_delivers (h : AwaitsData addr payload (cacheInvalidate s) v)
    (hfit : (answerAt s 0).data.fits s.busWide = true) (hd : (answerAt s 0).data.delivers bytes) :
    Completes (.readSingleBlock addr) s (BlockRead s addr payload bytes) := by
  have hy := dataPhase_delivers (s := v) (h.busWide ▸ hfit) hd
  exact read_filled (h.run hy) (h.ended (n := 0) hy (by simp) fun _ => rfl) rfl

/-- A data frame of that form with a wrong checksum is reported (R198). -/
theorem read_corrupt (h : AwaitsData addr payload (cacheInvalidate s) v)
    (hfit : (answerAt s 0).data.fits s.busWide = true) (hbad : (answerAt s 0).data.crcGood = false) :
    Completes (.readSingleBlock addr) s (ReadFailed s addr .crcError) := by
  obtain ⟨x, hy⟩ := dataPhase_corrupt (s := v) (h.busWide ▸ hfit) hbad
  exact completes_mono (read_failed (h.run hy) (h.ended (n := 0) hy (sent_dataPhase hy).time nofun)) fun t ht => ht.1

/-- A data frame of the other width's form is refused (R112). -/
theorem read_misfit (h : AwaitsData addr payload (cacheInvalidate s) v)
    (hfit : (answerAt s 0).data.fits s.busWide = false) : exec (.readSingleBlock addr) s = .refused .dataFormat :=
  read_refused (h.refused (dataPhase_misfit (h.busWide ▸ hfit)))

end read

/-- Settles O28, by `read_delivers`, `read_corrupt` and `read_misfit` on either bus width. -/
theorem readSingleBlockFillsTheBuffer : Obligations.ReadSingleBlockFillsTheBuffer := by
  intro s addr payload hrsp
  obtain ⟨v, hv⟩ := awaitsData_of_response (s := cacheInvalidate s) (addr := addr) hrsp
  refine ⟨fun hdata => ?_, fun bytes crc hdata => ⟨fun hbus hcrc => ?_, fun hbus hcrc => ?_, fun hbus => ?_⟩,
    fun bytes c3 c2 c1 c0 hdata => ⟨fun hbus hcrc => ?_, fun hbus hcrc => ?_, fun hbus => ?_⟩⟩
  · have hy := dataPhase_silent (s := v) hdata
    exact read_failed (hv.run hy) (hv.ended hy (by simp) nofun)
  · exact read_delivers hv (by simp [hdata, hbus, DataAns.fits]) (.inl (hcrc ▸ hdata))
  · exact read_corrupt hv (by simp [hdata, hbus, DataAns.fits]) (by simp [hdata, hcrc, DataAns.crcGood])
  · exact read_misfit hv (by simp [hdata, hbus, DataAns.fits])
  · exact read_delivers hv (by simp [hdata, hbus, DataAns.fits]) (.inr ⟨c3, c2, c1, c0, hdata, hcrc⟩)
  · exact read_corrupt hv (by simp [hdata, hbus, DataAns.fits]) (by simpa [hdata, DataAns.crcGood] using hcrc)
  · exact read_misfit hv (by simp [hdata, hbus, DataAns.fits])

/-- Settles O29, by `read_failed_of_verdict` for each bad response. -/
theorem readSingleBlockReportsABadResponse : Obligations.ReadSingleBlockReportsABadResponse := by
  intro s addr
  refine ⟨fun h => ?_, fun idx payload crc h => ⟨fun hcrc => ?_, fun hcrc hidx => ?_⟩, fun content h => ?_⟩
  · exact read_failed_of_verdict (.silent nofun h)
  · exact completes_mono (read_failed_of_verdict (.wrongCrc rfl h hcrc)) fun t ht => ht.1
  · exact completes_mono (read_failed_of_verdict (.wrongIndex rfl h hcrc hidx)) fun t ht => ht.1
  · have hr : Reaches .readSingleBlock addr (cacheInvalidate s) _ [] := reaches_plain rfl
    have hfit : (answerAt s 0).rsp.fits .r1 = false := by rw [h]; rfl
    exact read_refused (executeCmd_misfit hr nofun hfit)

/-! ### The statuses of the rows (R176, R201) -/

section statuses
variable {i : Instr} {c : Cmd} {a : Word} {s t : State} {st : Status} {index : BitVec 6} {fmt : RspFormat} {busy : Bool}
  {k : Option FailKind}

/-- The status of a card command is that of an `execute` of its row. -/
theorem status_of_exec (hi : cmdOf i = some (c, a)) (h : exec i s = .next t) :
    ∃ st s' u, executeCmd c a s' = .ok (st, u) ∧ t.result = .status st := by
  rw [exec_of_cmdOf hi] at h
  obtain ⟨st, u, hx, rfl⟩ := deliver_next h
  split at hx
  · rename_i hc
    obtain ⟨u', hx', -⟩ := readIntoCache_cases hx
    exact ⟨st, _, u', hc ▸ hx', rfl⟩
  · exact ⟨st, s, u, hx, rfl⟩

/-- Every status is that of a failure kind, or of none (R201). -/
theorem kind_of_executeCmd (h : executeCmd c a s = .ok (st, t)) : ∃ k, st = statusOf k := by
  obtain ⟨-, -, ⟨k, u, -, hend⟩ | ⟨u, -, ⟨k, v, -, hend⟩ | ⟨v, -, ⟨-, hend⟩ | ⟨-, k, w, -, hend⟩⟩⟩⟩ :=
    execute_cases h <;>
    exact ⟨_, (Prod.mk.inj hend).1⟩

/-- Of a command that is one exchange, it is the kind that exchange ends with. -/
theorem exchange_of_executeCmd (hd : c.descriptor.data = false) (hc : c.descriptor.acmd = false)
    (h : executeCmd c a s = .ok (st, t)) :
    ∃ k u, exchange c.descriptor.index a c.descriptor.rsp c.descriptor.busy (clocked c a s) = .ok (k, u) ∧
      st = statusOf k := by
  rw [executeCmd, execute_plain (write_eq_false c) hd hc] at h
  split at h
  · cases h
  · rename_i k u hx
    cases h
    exact ⟨k, u, hx, rfl⟩

/-- What a response is checked for is all that it can fail (R110). -/
theorem checkRsp_kind {rsp : Rsp} {e : FailKind} (h : checkRsp index fmt rsp = some e) :
    (e = .rspCrc ∧ fmt.checksCrc = true) ∨ (e = .cmdIndex ∧ fmt.checksIndex = true) := by
  unfold checkRsp at h
  split_ifs at h with hcrc hidx <;> cases h
  · exact .inl ⟨rfl, (Bool.and_eq_true_iff.mp hcrc).1⟩
  · exact .inr ⟨rfl, (Bool.and_eq_true_iff.mp hidx).1⟩

/-- How an exchange can end, by its format (R192, R296). -/
theorem exchange_kind (h : exchange index a fmt busy s = .ok (k, t)) :
    k = none ∨ (fmt ≠ .none ∧
      (k = some .cmdTimeout ∨ k = some .dataTimeout ∨ (k = some .rspCrc ∧ fmt.checksCrc = true) ∨
        (k = some .cmdIndex ∧ fmt.checksIndex = true))) := by
  rcases exchange_cases h with ⟨-, hk, -⟩ | ⟨hfmt, -, hk, -⟩ | ⟨hfmt, -, -, htake⟩
  · exact .inl hk
  · exact .inr ⟨hfmt, .inl hk⟩
  · cases hcheck : checkRsp index fmt (nextAnswer s).rsp with
    | some e =>
      rw [takeRsp_bad hcheck] at htake
      obtain rfl := (Prod.mk.inj htake).1
      rcases checkRsp_kind hcheck with ⟨rfl, hf⟩ | ⟨rfl, hf⟩
      · exact .inr ⟨hfmt, .inr (.inr (.inl ⟨rfl, hf⟩))⟩
      · exact .inr ⟨hfmt, .inr (.inr (.inr ⟨rfl, hf⟩))⟩
    | none =>
      simp only [takeRsp, hcheck, busyWait] at htake
      split_ifs at htake
      · exact .inr ⟨hfmt, .inr (.inl (Prod.mk.inj htake).1)⟩
      · exact .inl (Prod.mk.inj htake).1

/-- The statuses of a command that is one exchange, by its format. -/
theorem status_of_format (hd : c.descriptor.data = false) (hc : c.descriptor.acmd = false)
    (h : executeCmd c a s = .ok (st, t)) :
    st = .ok ∨ (c.descriptor.rsp ≠ .none ∧
      (st = .timeout ∨ (st = .crcError ∧ c.descriptor.rsp.checksCrc = true) ∨
        (st = .commandError ∧ c.descriptor.rsp.checksIndex = true))) := by
  obtain ⟨k, u, hx, rfl⟩ := exchange_of_executeCmd hd hc h
  obtain rfl | ⟨hfmt, rfl | rfl | ⟨rfl, hcrc⟩ | ⟨rfl, hidx⟩⟩ := exchange_kind hx
  · exact .inl rfl
  · exact .inr ⟨hfmt, .inl rfl⟩
  · exact .inr ⟨hfmt, .inl rfl⟩
  · exact .inr ⟨hfmt, .inr (.inl ⟨rfl, hcrc⟩)⟩
  · exact .inr ⟨hfmt, .inr (.inr ⟨rfl, hidx⟩)⟩

end statuses

/-- Settles O32: every status is that of a failure kind, and those of a row that is one exchange are the ones its
format allows (`status_of_format`). -/
theorem statusesOfEachCommand : Obligations.StatusesOfEachCommand := by
  intro i c arg s t hi h
  obtain ⟨st, s', u, hx, hst⟩ := status_of_exec hi h
  refine ⟨st, hst, ?_, ?_, ?_, ?_⟩
  · obtain ⟨k, rfl⟩ := kind_of_executeCmd hx
    rcases k with _ | k
    · exact .inl rfl
    · cases k <;> simp [statusOf]
  · rintro (rfl | rfl) <;>
    · simpa [Cmd.descriptor] using status_of_format rfl rfl hx
  · rintro rfl
    simpa [Cmd.descriptor, RspFormat.checksCrc, RspFormat.checksIndex] using status_of_format rfl rfl hx
  · rintro (rfl | rfl) <;>
    · simpa [Cmd.descriptor, RspFormat.checksCrc, RspFormat.checksIndex] using status_of_format rfl rfl hx

end Sys2Proof.Proofs

/-! SUPPORT. The bounded waits of the transport, and what a card command leaves: its frame, its flags and the events it
adds to the trace. -/

namespace Sys2Proof.Proofs

open Sys2Proof.Machine Sys2Proof.Laws

/-! ### A bounded wait, poll by poll (R208) -/

section wait
variable {t0 budget : Nat} {p : Poll} {polls before : List Poll} {b : Bool}

/-- The poll neither sees the condition nor finds the budget used up: the wait goes on. -/
def Pending (t0 budget : Nat) (p : Poll) : Prop := p.ready = false ∧ p.atMs - t0 < budget

/-- The poll ends the wait with this answer: it sees the condition, or does not and finds the budget used up. -/
def EndsWait (t0 budget : Nat) (b : Bool) (p : Poll) : Prop :=
  p.ready = b ∧ (b = false → budget ≤ p.atMs - t0)

theorem pending_or_endsWait (t0 budget : Nat) (p : Poll) :
    Pending t0 budget p ∨ ∃ b, EndsWait t0 budget b p := by
  by_cases hr : p.ready = true
  · exact .inr ⟨true, hr, nofun⟩
  rw [Bool.not_eq_true] at hr
  by_cases hb : budget ≤ p.atMs - t0
  · exact .inr ⟨false, hr, fun _ => hb⟩
  · exact .inl ⟨hr, Nat.lt_of_not_le hb⟩

theorem waitUntil_of_pending (h : Pending t0 budget p) :
    waitUntil t0 budget (p :: polls) = waitUntil t0 budget polls := by
  obtain ⟨hr, hb⟩ := h
  simp [waitUntil, hr, Nat.not_le_of_lt hb]

theorem waitUntil_of_endsWait (h : EndsWait t0 budget b p) : waitUntil t0 budget (p :: polls) = some b := by
  obtain ⟨rfl, hb⟩ := h
  cases hr : p.ready with
  | true => simp [waitUntil, hr]
  | false => simp [waitUntil, hr, hb hr]

theorem waitUntil_append_of_pending (h : ∀ q ∈ before, Pending t0 budget q) :
    waitUntil t0 budget (before ++ polls) = waitUntil t0 budget polls := by
  induction before with
  | nil => rfl
  | cons q before ih =>
    obtain ⟨hq, hbefore⟩ := List.forall_mem_cons.mp h
    exact (waitUntil_of_pending hq).trans (ih hbefore)

/-- The wait ends with an answer exactly at the first poll that ends it. -/
theorem waitUntil_eq_some_iff : waitUntil t0 budget polls = some b ↔
    ∃ before p after, polls = before ++ p :: after ∧ EndsWait t0 budget b p ∧ ∀ q ∈ before, Pending t0 budget q := by
  constructor
  · intro h
    induction polls with
    | nil => cases h
    | cons p polls ih =>
      rcases pending_or_endsWait t0 budget p with hp | ⟨b', hp⟩
      · obtain ⟨before, q, after, rfl, hq, hbefore⟩ := ih (waitUntil_of_pending hp ▸ h)
        exact ⟨p :: before, q, after, rfl, hq, List.forall_mem_cons.mpr ⟨hp, hbefore⟩⟩
      · obtain rfl : b' = b := Option.some.inj ((waitUntil_of_endsWait hp).symm.trans h)
        exact ⟨[], p, polls, rfl, hp, nofun⟩
  · rintro ⟨before, p, after, rfl, hp, hbefore⟩
    rw [waitUntil_append_of_pending hbefore, waitUntil_of_endsWait hp]

theorem waitUntil_eq_none_iff : waitUntil t0 budget polls = none ↔ ∀ q ∈ polls, Pending t0 budget q := by
  constructor
  · intro h
    induction polls with
    | nil => nofun
    | cons p polls ih =>
      rcases pending_or_endsWait t0 budget p with hp | ⟨b, hp⟩
      · exact List.forall_mem_cons.mpr ⟨hp, ih (waitUntil_of_pending hp ▸ h)⟩
      · cases (waitUntil_of_endsWait hp).symm.trans h
  · intro h
    simpa [waitUntil] using waitUntil_append_of_pending (polls := []) h

theorem dataWait_eq_ok_or_timeout {st : Status} (h : dataWait t0 polls = some st) : st = .ok ∨ st = .timeout := by
  obtain ⟨b, -, rfl⟩ := Option.map_eq_some_iff.mp h
  cases b with
  | true => exact .inl rfl
  | false => exact .inr rfl

end wait

/-- Settles O18: a poll is pending or ends the wait, and the wait's answer is that of the first poll that ends it
(`waitUntil_eq_some_iff`). -/
theorem waitsEndByConditionOrBudget : Obligations.WaitsEndByConditionOrBudget := by
  intro t0 budget polls
  refine ⟨?_, ?_, waitUntil_eq_none_iff, fun p hp => waitUntil_of_endsWait ⟨hp, nofun⟩,
    fun st => dataWait_eq_ok_or_timeout⟩
  · simp [waitUntil_eq_some_iff, EndsWait, Pending]
  · simp [waitUntil_eq_some_iff, EndsWait, Pending, and_assoc]

/-! ### A card command is one `execute` -/

section command
variable {i : Instr} {c : Cmd} {a : Word} {s t : State} {st : Status}

/-- READ_SINGLE_BLOCK is the one row with a data phase (R101). -/
theorem data_eq_false (hc : c ≠ .readSingleBlock) : c.descriptor.data = false := by
  cases c
  case readSingleBlock => exact absurd rfl hc
  all_goals rfl

/-- A completed card command is `execute` of its row, and then its status is recorded; READ_SINGLE_BLOCK alone writes
the cache before it and after it (R172, R264, R269). -/
theorem executeCmd_of_exec (hi : cmdOf i = some (c, a)) (h : exec i s = .next t) :
    ∃ y z u st, executeCmd c a { s with cache := y } = .ok (st, u) ∧
      t = { u with cache := z, result := .status st } ∧
      (c ≠ .readSingleBlock → y = s.cache ∧ z = u.cache) := by
  rw [exec_of_cmdOf hi] at h
  obtain ⟨st, v, hx, rfl⟩ := deliver_next h
  split at hx
  · rename_i hc
    obtain ⟨u, hu, -, hend⟩ := readIntoCache_cases hx
    refine ⟨_, v.cache, u, st, hc ▸ hu, ?_, fun hne => absurd hc hne⟩
    obtain ⟨-, -, -, rfl⟩ | ⟨-, rfl⟩ := hend <;> rfl
  · exact ⟨s.cache, v.cache, v, st, hx, rfl, fun _ => ⟨rfl, rfl⟩⟩

theorem commandFrame_cache (y : Cache) (s : State) : CommandFrame s { s with cache := y } := by
  constructor <;> rfl

theorem commandFrame_end (z : Cache) (r : Result) (s : State) : CommandFrame s { s with cache := z, result := r } := by
  constructor <;> rfl

/-! ### The events of a command (R191, R204 a) -/

/-- On top of what step 1 left in the trace a command adds frames only, at its clock and from then on. -/
theorem trace_executeCmd (h : executeCmd c a s = .ok (st, t)) :
    ∃ evs : List Event, t.trace = evs ++ (clocked c a s).trace ∧
      (∀ e ∈ evs, ∃ f, e.kind = .frame f (clockOf c.descriptor.ls)) ∧
      ∀ e ∈ evs, (clocked c a s).nowMs ≤ e.atMs := by
  obtain ⟨m, hm, ⟨-, ht⟩ | ⟨-, ht⟩ | ⟨-, m', hm', ht⟩⟩ := trace_execute h
  · exact ⟨[_], ht, by simp, by simpa using hm⟩
  · exact ⟨[_], ht, by simp, by simpa using hm⟩
  · exact ⟨[_, _], ht, by simp, by simpa using ⟨hm.trans hm', hm⟩⟩

end command

/-! ### The statements -/

/-- Settles O30: a card command is one `execute` (`executeCmd_of_exec`), whose end is `Executed`. -/
theorem cardCommandsKeepTheirFrame : Obligations.CardCommandsKeepTheirFrame := by
  intro i c arg s t hi h
  obtain ⟨y, z, u, st, hx, rfl, hcache⟩ := executeCmd_of_exec hi h
  have hdone : Executed c.descriptor arg { s with cache := y } u := executed_of_executeCmd hx
  refine ⟨((commandFrame_cache y s).trans hdone.frame).trans (commandFrame_end z _ u), fun hc => ?_, hdone.flags,
    fun hr => hdone.clkRun.trans (if_pos hr), fun hr => hdone.clkRun.trans (if_neg hr), hdone.clock⟩
  obtain ⟨rfl, rfl⟩ := hcache hc
  exact hdone.cache (data_eq_false hc)

/-- Settles O31: the frames stand on top of what step 1 left in the trace (`trace_executeCmd`), which is the change of
rate and its delay, or nothing new (`trace_selectClock`). -/
theorem clockSettlesBeforeTheFirstFrame : Obligations.ClockSettlesBeforeTheFirstFrame := by
  intro i c arg s t hi h
  obtain ⟨y, z, u, st, hx, rfl, -⟩ := executeCmd_of_exec hi h
  obtain ⟨evs, htrace, hframes, htime⟩ := trace_executeCmd hx
  rcases trace_selectClock c.descriptor.ls { s with cache := y, cd := ⟨c.descriptor, arg⟩ } with
    ⟨hsel, hclock⟩ | ⟨hsel, hclock, hsettle⟩
  · exact ⟨evs, hframes, fun _ => htrace.trans (congrArg (evs ++ ·.trace) hclock), fun hchange => absurd hsel hchange⟩
  · refine ⟨evs, hframes, fun hsame => absurd hsame hsel,
      fun _ => ⟨htrace.trans (congrArg (evs ++ ·) hclock), fun e he => ?_⟩⟩
    have hlater : s.nowMs + (s.cfg.clkSettleUs + 999) / 1000 ≤ e.atMs := hsettle.trans (htime e he)
    omega

end Sys2Proof.Proofs

/-! SUPPORT. The two loops of the acquisition in the trace: the events of one operating-condition command, the turns of
a loop made of a delay and one such command, and how the loops end. -/

namespace Sys2Proof.Proofs

open Sys2Proof.Machine Sys2Proof.Laws

/-! ### The events of a command -/

theorem framesOf_append (evs tr : List Event) : framesOf (evs ++ tr) = framesOf tr ++ framesOf evs := by
  simp [framesOf]

/-- A part of a command has run: it added these events, newest first, none of them a delay of milliseconds, none before
it began or after it ended, the oldest of them at once. -/
structure Emitted (s t : State) (evs : List Event) : Prop where
  trace     : t.trace = evs ++ s.trace
  undelayed : undelayed evs
  time      : s.nowMs ≤ t.nowMs
  within    : ∀ e ∈ evs, s.nowMs ≤ e.atMs ∧ e.atMs ≤ t.nowMs
  atOnce    : (evs = [] ∧ t.nowMs = s.nowMs) ∨ ∃ e, evs.getLast? = some e ∧ e.atMs = s.nowMs

section emitted
variable {s t u : State} {evs evs' : List Event} {c : Cmd} {a : Word} {b : Branch} {st : Status}

theorem Emitted.trans (h : Emitted s t evs) (k : Emitted t u evs') : Emitted s u (evs' ++ evs) where
  trace := by rw [k.trace, h.trace, List.append_assoc]
  undelayed := List.forall_mem_append.mpr ⟨k.undelayed, h.undelayed⟩
  time := h.time.trans k.time
  within := List.forall_mem_append.mpr
    ⟨fun e he => ⟨h.time.trans (k.within e he).1, (k.within e he).2⟩,
      fun e he => ⟨(h.within e he).1, (h.within e he).2.trans k.time⟩⟩
  atOnce := by
    rcases h.atOnce with ⟨rfl, hnow⟩ | ⟨e, he, hat⟩
    · simpa [hnow] using k.atOnce
    · exact .inr ⟨e, by simp [List.getLast?_append, he], hat⟩

/-- Nothing goes out and no time passes. -/
theorem SameOutside.emitted (h : SameOutside s t) : Emitted s t [] :=
  ⟨h.trace, nofun, h.nowMs.ge, nofun, .inl ⟨rfl, h.nowMs⟩⟩

theorem Emitted.write (h : Emitted s t evs) (k : SameOutside t u) : Emitted s u evs := by
  simpa using h.trans k.emitted

theorem emitted_selectClock (ls : Bool) (s : State) : ∃ evs, Emitted s (selectClock ls s) evs := by
  rcases trace_selectClock ls s with ⟨-, h⟩ | ⟨-, h, -⟩
  · exact ⟨[], h.symm ▸ SameOutside.emitted ⟨rfl, rfl, rfl⟩⟩
  · have htime := selectClock_time ls s
    exact ⟨[_, _], h, by simp [Machine.undelayed], htime, by simpa using htime, .inr ⟨_, rfl, rfl⟩⟩

theorem emitted_exchange {i : BitVec 6} {fmt : RspFormat} {busy : Bool} {k : Option FailKind}
    (h : exchange i a fmt busy s = .ok (k, t)) :
    Emitted s t [⟨.frame (cmdFrame i a) s.clkSel, s.nowMs⟩] := by
  have htime := (sent_exchange h).1.time
  exact ⟨trace_exchange h, by simp [Machine.undelayed], htime, by simpa using htime, .inr ⟨_, rfl, rfl⟩⟩

theorem emitted_prefixPhase {p : Bool} {k : Option FailKind} (h : prefixPhase p s = .ok (k, t)) :
    ∃ evs, Emitted s t evs := by
  unfold prefixPhase at h
  split at h
  · exact ⟨_, emitted_exchange h⟩
  · cases h
    exact ⟨[], SameOutside.emitted ⟨rfl, rfl, rfl⟩⟩

theorem emitted_finish (d : Descriptor) (k : Option FailKind) (s : State) : Emitted s (finish d k s).2 [] := by
  obtain ⟨-, -, -, hframe, -, -, -, -, hnow⟩ := finish_spec d k s
  exact SameOutside.emitted ⟨hnow, hframe.cfg, trace_finish d k s⟩

/-- A command without a data phase, from its clock to its end. -/
theorem emitted_executeCmd (hd : c.descriptor.data = false) (h : executeCmd c a s = .ok (st, t)) :
    ∃ evs, Emitted s t evs := by
  obtain ⟨cl, hcl⟩ := emitted_selectClock c.descriptor.ls { s with cd := ⟨c.descriptor, a⟩ }
  have hlatch : Emitted s { s with cd := ⟨c.descriptor, a⟩ } [] := SameOutside.emitted ⟨rfl, rfl, rfl⟩
  obtain ⟨-, -, ⟨k, u, hp, ht⟩ | ⟨u, hp, ⟨k, v, hx, ht⟩ | ⟨v, hx, ⟨-, ht⟩ | ⟨hdata, -⟩⟩⟩⟩ := execute_cases h
  case inr.inr.inr => exact absurd hdata (by simp [hd])
  all_goals
    obtain ⟨pre, hpre⟩ := emitted_prefixPhase hp
    obtain rfl : t = _ := (Prod.mk.inj ht).2
  · exact ⟨_, ((hlatch.trans hcl).trans hpre).trans (emitted_finish _ _ _)⟩
  · exact ⟨_, (((hlatch.trans hcl).trans hpre).trans (emitted_exchange hx)).trans (emitted_finish _ _ _)⟩
  · exact ⟨_, (((hlatch.trans hcl).trans hpre).trans (emitted_exchange hx)).trans (emitted_finish _ _ _)⟩

/-- The card command that `op_cond` of a branch is (R226). -/
def opCondCmd : Branch → Cmd
  | .sd => .sdSendOpCond
  | .mmc => .sendOpCond

theorem opCond_eq_executeCmd (b : Branch) (a : Word) (s : State) : opCond b a s = executeCmd (opCondCmd b) a s := by
  cases b <;> rfl

/-- How many frames one operating-condition command sends at most (R226). -/
def opCondWidth : Branch → Nat
  | .sd => 2
  | .mmc => 1

theorem length_of_mem_opCondFrames {rca : BitVec 16} {fs : List Frame} (h : fs ∈ opCondFrames b rca a) :
    1 ≤ fs.length ∧ fs.length ≤ opCondWidth b := by
  cases b
  · simp only [opCondFrames, List.mem_cons, List.not_mem_nil, or_false] at h
    obtain rfl | rfl := h <;> simp [opCondWidth]
  · simp only [opCondFrames, List.mem_singleton] at h
    subst h
    simp [opCondWidth]

/-- The frames of a completed `op_cond`, and as many answers taken (R193, R226). -/
theorem frames_of_opCond (h : opCond b a s = .ok (st, t)) :
    ∃ fs ∈ opCondFrames b s.session.rca a,
      framesOf t.trace = framesOf s.trace ++ fs ∧ t.card = s.card.drop fs.length := by
  rw [opCond_eq_executeCmd] at h
  obtain ⟨fs, hwire, hcard, hfs⟩ := (executed_of_executeCmd h).wire
  refine ⟨fs, ?_, hwire, hcard⟩
  cases b <;> simpa [opCondFrames, opCondCmd, Cmd.descriptor, rcaArg, or_comm] using hfs

/-- The events of a completed `op_cond`. -/
theorem emitted_opCond (h : opCond b a s = .ok (st, t)) :
    ∃ evs, Emitted s t evs ∧ framesOf evs ∈ opCondFrames b s.session.rca a := by
  obtain ⟨fs, hfs, hwire, -⟩ := frames_of_opCond h
  rw [opCond_eq_executeCmd] at h
  obtain ⟨evs, hevs⟩ := emitted_executeCmd (by cases b <;> rfl) h
  refine ⟨evs, hevs, ?_⟩
  rw [hevs.trace, framesOf_append] at hwire
  rwa [List.append_cancel_left hwire]

/-- Such a command sends at least one frame, so the oldest event stands at the time it began. -/
theorem Emitted.oldest (h : Emitted s t evs) {rca : BitVec 16} (hf : framesOf evs ∈ opCondFrames b rca a) :
    ∃ e, evs.getLast? = some e ∧ e.atMs = s.nowMs := by
  rcases h.atOnce with ⟨rfl, -⟩ | he
  · exact absurd (length_of_mem_opCondFrames hf).1 (by simp)
  · exact he

end emitted

/-! ### The turns of a loop -/

/-- A loop that delays before each try went from one state to the other in these turns, newest first (R340). -/
structure Turns (n : Nat) (frames : List (List Frame)) (s t : State) (us : List LoopTurn) : Prop where
  trace  : t.trace = us.flatMap (LoopTurn.trace n) ++ s.trace
  spaced : SpacedTurns n frames s.nowMs us
  past   : ∀ u ∈ us, ∀ e ∈ u.events, e.atMs ≤ t.nowMs
  time   : s.nowMs + us.length * n ≤ t.nowMs

section turns
variable {n : Nat} {frames : List (List Frame)} {s t v : State} {us vs : List LoopTurn} {b : Branch} {a : Word}

theorem spacedTurns_mono {t0 t1 : Nat} (h : t0 ≤ t1) (k : SpacedTurns n frames t1 us) : SpacedTurns n frames t0 us :=
  ⟨k.sent, fun u hu => ⟨h.trans (k.waited u hu).1, (k.waited u hu).2⟩, k.ordered⟩

theorem Turns.nil (s : State) : Turns n frames s s [] :=
  ⟨rfl, ⟨nofun, nofun, .nil⟩, nofun, by simp⟩

theorem Turns.time_le (h : Turns n frames s t us) : s.nowMs ≤ t.nowMs :=
  (Nat.le_add_right _ _).trans h.time

/-- One turn: a delay, and the events of one try after it. -/
theorem Turns.single {evs : List Event} (h : Emitted (delayMs n s) t evs) (hf : framesOf evs ∈ frames) :
    Turns n frames s t [⟨s.nowMs, evs⟩] := by
  have hdelay : s.nowMs + n ≤ (delayMs n s).nowMs := by simp
  refine ⟨by simp [h.trace, LoopTurn.trace], ⟨by simpa using ⟨hf, h.undelayed⟩, ?_, by simp⟩, ?_, ?_⟩
  · simpa using fun e he => hdelay.trans (h.within e he).1
  · simpa using fun e he => (h.within e he).2
  · simpa using hdelay.trans h.time

theorem Turns.trans (h : Turns n frames s t us) (k : Turns n frames t v vs) : Turns n frames s v (vs ++ us) where
  trace := by rw [k.trace, h.trace, List.flatMap_append, List.append_assoc]
  spaced :=
    { sent := List.forall_mem_append.mpr ⟨k.spaced.sent, h.spaced.sent⟩
      waited := List.forall_mem_append.mpr ⟨(spacedTurns_mono h.time_le k.spaced).waited, h.spaced.waited⟩
      ordered := List.pairwise_append.mpr ⟨k.spaced.ordered, h.spaced.ordered,
        fun later hl earlier he e hee => (h.past earlier he e hee).trans (k.spaced.waited later hl).1⟩ }
  past := List.forall_mem_append.mpr ⟨k.past, fun u hu e he => (h.past u hu e he).trans k.time_le⟩
  time := by
    have h1 := h.time
    have h2 := k.time
    rw [List.length_append, Nat.add_mul]
    omega

/-- Each turn sends at most as many frames as an operating-condition command has. -/
theorem length_framesOf_turns {rca : BitVec 16} {t0 : Nat} (h : SpacedTurns n (opCondFrames b rca a) t0 us) :
    (framesOf (us.flatMap (LoopTurn.trace n))).length ≤ opCondWidth b * us.length := by
  have hsent := h.sent
  clear h
  induction us with
  | nil => simp
  | cons u us ih =>
    obtain ⟨⟨hu, -⟩, hus⟩ := List.forall_mem_cons.mp hsent
    have hlen := (length_of_mem_opCondFrames hu).2
    have ih := ih hus
    rw [List.flatMap_cons, LoopTurn.trace, framesOf_append, framesOf_append, framesOf_delayMs, List.length_append,
      List.length_append, List.length_cons, Nat.mul_succ]
    simp only [framesOf_nil, List.length_nil]
    omega

end turns

/-! ### The poll loop (R227) -/

section poll
variable {b : Branch} {s t : State} {e : TryEnd} {ok : Bool}

/-- One try is one turn with argument 0; it never ends the loop with failure. -/
theorem pollTry_turn (h : pollTry b s = .ok (e, t)) :
    ∃ u, Turns Config.pollSpacingMs (opCondFrames b s.session.rca 0#32) s t [u] ∧ t.tries = s.tries + 1 ∧
      t.session = s.session ∧ e ≠ .failure ∧ (e = .success → ocrReady t.ocr = true) := by
  obtain ⟨st, u, hx, hend⟩ := pollTry_cases h
  obtain ⟨evs, hevs, hf⟩ := emitted_opCond hx
  have hframe := (executed_of_opCond hx).frame
  have turn {v : State} (hv : SameOutside u v) := Turns.single (hevs.write hv) hf
  obtain ⟨-, rfl, rfl⟩ | ⟨-, rfl, rfl⟩ := hend
  · refine ⟨_, turn ⟨rfl, rfl, rfl⟩, congrArg (· + 1) hframe.tries, hframe.session, ?_⟩
    split_ifs with hready
    · exact ⟨nofun, fun _ => hready⟩
    · exact ⟨nofun, nofun⟩
  · exact ⟨_, turn ⟨rfl, rfl, rfl⟩, congrArg (· + 1) hframe.tries, hframe.session, nofun, nofun⟩

/-- The turns of the loop that are left: all of them are made, unless one succeeds. -/
theorem pollTurns_turns : ∀ (n : Nat) {s t : State}, pollTurns b n s = .ok (ok, t) →
    ∃ us, Turns Config.pollSpacingMs (opCondFrames b s.session.rca 0#32) s t us ∧ t.tries = s.tries + us.length ∧
      us.length ≤ n ∧ (ok = true → 1 ≤ us.length ∧ ocrReady t.ocr = true) ∧ (ok = false → us.length = n)
  | 0, s, t, h => by
    cases h
    exact ⟨[], .nil s, rfl, le_rfl, nofun, fun _ => rfl⟩
  | n + 1, s, t, h => by
    unfold pollTurns at h
    split at h
    · cases h
    · next v hx =>
      obtain ⟨u, hu, htries, hsession, -⟩ := pollTry_turn hx
      obtain ⟨us, hus, htries', hle, hsuccess, hfail⟩ := pollTurns_turns n h
      rw [hsession] at hus
      refine ⟨us ++ [u], hu.trans hus, ?_, ?_, fun hok => ⟨?_, (hsuccess hok).2⟩, fun hok => ?_⟩
      · rw [htries', htries, List.length_append, List.length_singleton]
        omega
      · simpa using hle
      · simp
      · simpa using hfail hok
    · next v hx =>
      cases h
      obtain ⟨u, hu, htries, -, -, hready⟩ := pollTry_turn hx
      exact ⟨[u], hu, htries, by simp, fun _ => ⟨le_rfl, hready rfl⟩, nofun⟩
    · next v hx =>
      obtain ⟨u, -, -, -, hne, -⟩ := pollTry_turn hx
      exact absurd rfl hne

/-- The whole loop. -/
theorem pollLoop_turns (h : pollLoop b s = .ok (ok, t)) :
    ∃ us, Turns Config.pollSpacingMs (opCondFrames b s.session.rca 0#32) s t us ∧ us.length = t.tries ∧
      t.tries ≤ Config.pollTries ∧ (ok = true → 1 ≤ t.tries ∧ ocrReady t.ocr = true) ∧
      (ok = false → t.tries = Config.pollTries) := by
  obtain ⟨us, hus, htries, hle, hsuccess, hfail⟩ := pollTurns_turns _ h
  have hlen : us.length = t.tries := by simpa using htries.symm
  rw [hlen] at hle hsuccess hfail
  exact ⟨us, ⟨hus.trace, hus.spaced, hus.past, hus.time⟩, hlen, hle, hsuccess, hfail⟩

theorem length_framesOf_pollLoop (h : pollLoop b s = .ok (ok, t)) :
    (framesOf t.trace).length ≤ (framesOf s.trace).length + opCondWidth b * Config.pollTries := by
  obtain ⟨us, hus, hlen, hle, -⟩ := pollLoop_turns h
  have hcount := length_framesOf_turns hus.spaced
  have hmul := Nat.mul_le_mul_left (opCondWidth b) (hlen ▸ hle)
  rw [hus.trace, framesOf_append, List.length_append]
  omega

end poll

theorem opCondWidth_le (b : Branch) : opCondWidth b ≤ 2 := by
  cases b <;> decide

/-- Settles O34, by the turns of the loop (`pollLoop_turns`). -/
theorem pollLoopIsBounded : Obligations.PollLoopIsBounded := by
  intro b s t ok h
  obtain ⟨us, hus, hlen, hle, hsuccess, hfail⟩ := pollLoop_turns h
  have hcount := length_framesOf_pollLoop h
  have hwidth := Nat.mul_le_mul_right Config.pollTries (opCondWidth_le b)
  exact ⟨hle, hlen ▸ hus.time, hsuccess, hfail, by omega, us, hlen, hus.trace, hus.spaced⟩

end Sys2Proof.Proofs

/-! SUPPORT. The negotiation loop in the trace: its first try, its turns, and the delay that may stand at its end. -/

namespace Sys2Proof.Proofs

open Sys2Proof.Machine Sys2Proof.Laws

/-! ### The negotiation loop (R228, R229) -/

section negotiate
variable {b : Branch} {s t u v : State} {e : TryEnd} {ok : Bool} {n : Nat}

theorem negCeiling_eq_false_iff (s : State) :
    negCeiling s = false ↔ s.tries < s.cfg.negMaxTries ∧ s.nowMs - s.negT0 < s.cfg.negMaxMs := by
  simp [negCeiling]

theorem negCeiling_eq_true_iff (s : State) :
    negCeiling s = true ↔ s.cfg.negMaxTries ≤ s.tries ∨ s.cfg.negMaxMs ≤ s.nowMs - s.negT0 := by
  simp [negCeiling]

/-- What the tries of a negotiation leave as it was set at its start, with the RCA that an APP_CMD carries. -/
structure NegKept (s t : State) : Prop where
  negArg : t.negArg = s.negArg
  negT0  : t.negT0 = s.negT0
  cfg    : t.cfg = s.cfg
  rca    : t.session.rca = s.session.rca

theorem NegKept.trans (h : NegKept s t) (k : NegKept t u) : NegKept s u :=
  ⟨k.negArg.trans h.negArg, k.negT0.trans h.negT0, k.cfg.trans h.cfg, k.rca.trans h.rca⟩

theorem negKept_delayMs (n : Nat) (s : State) : NegKept s (delayMs n s) := ⟨rfl, rfl, rfl, rfl⟩

/-- The loop has ended well in this state: the power-up bit is seen, and the time since the loop was entered is recorded,
saturated (R228, R29). -/
def Negotiated (t : State) : Prop := ocrReady t.ocr = true ∧ t.session.acquireTimeMs = negElapsed t

/-- What a try of the negotiation has found. -/
def NegLooked : TryEnd → State → Prop
  | .success, t => Negotiated t
  | .failure, t => negCeiling t = true
  | .again, t => negCeiling t = false

theorem negLooked_of_negTry (h : negTry b s = .ok (e, t)) : NegLooked e t := by
  have looked (v : State) : NegLooked (if negCeiling v then .failure else .again) v := by
    split_ifs with hc
    · exact hc
    · exact Bool.eq_false_of_not_eq_true hc
  unfold negTry at h
  split at h
  · cases h
  next st u hx =>
  by_cases hst : st = .ok
  · simp only [hst, if_true, true_and] at h
    split at h
    · next hready =>
      cases h
      exact ⟨hready, rfl⟩
    · cases h
      exact looked _
  · simp only [hst, if_false, false_and] at h
    cases h
    exact looked _

/-- One try sends the frames of one operating-condition command with the masked argument. -/
theorem emitted_negTry (h : negTry b s = .ok (e, t)) :
    (∃ evs, Emitted s t evs ∧ framesOf evs ∈ opCondFrames b s.session.rca s.negArg) ∧ NegKept s t ∧
      t.tries = s.tries + 1 := by
  obtain ⟨st, u, hx, hend⟩ := negTry_cases h
  obtain ⟨evs, hevs, hf⟩ := emitted_opCond hx
  have hframe := (executed_of_opCond hx).frame
  have hkept : NegKept s u := ⟨hframe.negArg, hframe.negT0, hframe.cfg, congrArg Session.rca hframe.session⟩
  obtain ⟨-, -, -, ms, rfl⟩ | ⟨-, rfl⟩ := hend
  · exact ⟨⟨evs, hevs.write ⟨rfl, rfl, rfl⟩, hf⟩, hkept.trans ⟨rfl, rfl, rfl, rfl⟩, congrArg (· + 1) hframe.tries⟩
  · exact ⟨⟨evs, hevs.write ⟨rfl, rfl, rfl⟩, hf⟩, hkept.trans ⟨rfl, rfl, rfl, rfl⟩, congrArg (· + 1) hframe.tries⟩

/-- What follows a try that ended neither way: the delay, the second look if there is one, the turns that are left. -/
def negRest (b : Branch) (n : Nat) (s : State) : Res Bool :=
  if s.cfg.negRecheck && negCeiling (delayMs Config.negDelayMs s) then .ok (false, delayMs Config.negDelayMs s)
  else negTurns b n (delayMs Config.negDelayMs s)

/-- The loop, its last try done in `v`, ends in `t`: at once, or failing after the delay that the second look needs. -/
def NegEnded (ok : Bool) (v t : State) : Prop :=
  (t = v ∧ (ok = true → Negotiated t) ∧ (ok = false → negCeiling t = true)) ∨
  (ok = false ∧ v.cfg.negRecheck = true ∧ t = delayMs Config.negDelayMs v ∧ negCeiling t = true)

/-- The turns begin with a try, which ends the loop or leaves the rest of it. -/
theorem negTurns_cases (h : negTurns b (n + 1) s = .ok (ok, t)) :
    ∃ e u, negTry b s = .ok (e, u) ∧ (NegEnded ok u t ∨ (negCeiling u = false ∧ negRest b n u = .ok (ok, t))) := by
  unfold negTurns at h
  split at h
  · cases h
  · next hx => cases h; exact ⟨_, _, hx, .inl (.inl ⟨rfl, fun _ => negLooked_of_negTry hx, nofun⟩)⟩
  · next hx => cases h; exact ⟨_, _, hx, .inl (.inl ⟨rfl, nofun, fun _ => negLooked_of_negTry hx⟩)⟩
  · next hx => exact ⟨_, _, hx, .inr ⟨negLooked_of_negTry hx, h⟩⟩

/-- The delay of a turn began before the time ceiling of the loop that `s` is in, and so did its try where the
implementation looks again (R228, R229). -/
def BeforeCeiling (s : State) (u : LoopTurn) : Prop :=
  u.delayAt < s.negT0 + s.cfg.negMaxMs ∧
  (s.cfg.negRecheck = true → ∃ e, u.events.getLast? = some e ∧ e.atMs < s.negT0 + s.cfg.negMaxMs)

theorem BeforeCeiling.of_negKept {w : LoopTurn} (h : NegKept s t) (k : BeforeCeiling t w) : BeforeCeiling s w := by
  rwa [BeforeCeiling, h.negT0, h.cfg] at k

/-- The loop goes from `s`, where a try is done, in these turns to `v`, and ends in `t`. -/
structure NegRan (b : Branch) (ok : Bool) (s v t : State) (us : List LoopTurn) : Prop where
  turns  : Turns Config.negDelayMs (opCondFrames b s.session.rca s.negArg) s v us
  before : ∀ u ∈ us, BeforeCeiling s u
  kept   : NegKept s v
  tries  : v.tries = s.tries + us.length
  bound  : v.tries ≤ s.cfg.negMaxTries
  ended  : NegEnded ok v t

/-- A loop with no turn to come has ended. -/
theorem NegEnded.negRan (h : NegEnded ok v t) (hle : v.tries ≤ v.cfg.negMaxTries) : NegRan b ok v v t [] :=
  ⟨.nil v, nofun, ⟨rfl, rfl, rfl, rfl⟩, rfl, hle, h⟩

/-- One more turn before the others. -/
theorem NegRan.cons {w : State} {us : List LoopTurn} {x : LoopTurn}
    (hturn : Turns Config.negDelayMs (opCondFrames b s.session.rca s.negArg) s w [x]) (hx : BeforeCeiling s x)
    (hkept : NegKept s w) (htries : w.tries = s.tries + 1) (h : NegRan b ok w v t us) :
    NegRan b ok s v t (us ++ [x]) where
  turns := hturn.trans (hkept.rca ▸ hkept.negArg ▸ h.turns)
  before := List.forall_mem_append.mpr ⟨fun u hu => (h.before u hu).of_negKept hkept, by simpa using hx⟩
  kept := hkept.trans h.kept
  tries := by
    rw [h.tries, htries, List.length_append, List.length_singleton]
    omega
  bound := hkept.cfg ▸ h.bound
  ended := h.ended

/-- After a try that ended neither way: the turns, and the end. -/
theorem negRest_ran : ∀ (n : Nat) {s t : State}, s.tries + n = s.cfg.negMaxTries → negCeiling s = false →
    negRest b n s = .ok (ok, t) → ∃ v us, NegRan b ok s v t us
  | 0, s, t, hn, hc, _ => by
    have := ((negCeiling_eq_false_iff s).mp hc).1
    omega
  | n + 1, s, t, hn, hc, h => by
    obtain ⟨htries, htime⟩ := (negCeiling_eq_false_iff s).mp hc
    unfold negRest at h
    split at h
    · next hlook =>
      obtain ⟨hre, hceil⟩ := Bool.and_eq_true_iff.mp hlook
      cases h
      exact ⟨s, [], NegEnded.negRan (.inr ⟨rfl, hre, rfl, hceil⟩) htries.le⟩
    · next hlook =>
      obtain ⟨e, w, hx, hend⟩ := negTurns_cases h
      obtain ⟨⟨evs, hevs, hf⟩, hkept', hcount⟩ := emitted_negTry hx
      have hkept := (negKept_delayMs Config.negDelayMs s).trans hkept'
      have hcount : w.tries = s.tries + 1 := hcount
      have hbefore : BeforeCeiling s ⟨s.nowMs, evs⟩ := by
        refine ⟨by show s.nowMs < _; omega, fun hre => ?_⟩
        obtain ⟨e, he, hat⟩ := hevs.oldest hf
        have hsecond : negCeiling (delayMs Config.negDelayMs s) = false := by simpa [hre] using hlook
        have hlate := ((negCeiling_eq_false_iff _).mp hsecond).2
        simp only [delayMs_negT0, delayMs_cfg] at hlate
        exact ⟨e, he, by omega⟩
      have rest {v : State} {us : List LoopTurn} (k : NegRan b ok w v t us) :=
        NegRan.cons (Turns.single hevs hf) hbefore hkept hcount k
      rcases hend with hended | ⟨hres, hend⟩
      · exact ⟨_, _, rest (hended.negRan (by rw [hkept.cfg]; omega))⟩
      · obtain ⟨v, us, hran⟩ := negRest_ran n (by rw [hkept.cfg]; omega) hres hend
        exact ⟨v, _, rest hran⟩

/-- The loop as it is entered (R228). -/
def negEntered (s : State) : State := { s with negArg := s.ocr &&& s.cfg.hostOcrMask, tries := 0, negT0 := s.nowMs }

/-- The whole loop: the first try at once, up to `w`, the turns up to `v`, and the end. -/
theorem negotiateLoop_ran (hN : 1 ≤ s.cfg.negMaxTries) (h : negotiateLoop b s = .ok (ok, t)) :
    ∃ w v first us, Emitted (negEntered s) w first ∧
      framesOf first ∈ opCondFrames b s.session.rca (negEntered s).negArg ∧ NegKept (negEntered s) w ∧ w.tries = 1 ∧
      NegRan b ok w v t us := by
  obtain ⟨n, hn⟩ : ∃ n, s.cfg.negMaxTries = n + 1 := ⟨_, (Nat.sub_add_cancel hN).symm⟩
  have h : negTurns b (n + 1) (negEntered s) = .ok (ok, t) := by
    rw [← h, negotiateLoop, hn, Nat.max_eq_right (Nat.le_add_left 1 n)]
    rfl
  obtain ⟨e, w, hx, hend⟩ := negTurns_cases h
  obtain ⟨⟨evs, hevs, hf⟩, hkept, hcount⟩ := emitted_negTry hx
  have hcount : w.tries = 1 := hcount
  have hcfg : w.cfg = s.cfg := hkept.cfg
  rcases hend with hended | ⟨hres, hend⟩
  · exact ⟨w, w, evs, [], hevs, hf, hkept, hcount, hended.negRan (by rw [hcfg, hcount]; exact hN)⟩
  · obtain ⟨v, us, hran⟩ := negRest_ran n (by rw [hcfg, hcount, hn, Nat.add_comm]) hres hend
    exact ⟨w, v, evs, us, hevs, hf, hkept, hcount, hran⟩

/-- Bits that are 0 in the mask are 0 in the argument (R106, R7). -/
theorem masked_bits {ocr mask : Word} (h : mask &&& 0xC0000000#32 = 0#32) :
    (ocr &&& mask).getLsbD 31 = false ∧ (ocr &&& mask).getLsbD 30 = false := by
  have hbit (i : Nat) (hi : (0xC0000000#32).getLsbD i = true) : mask.getLsbD i = false := by
    simpa [hi] using congrArg (·.getLsbD i) h
  simp only [BitVec.getLsbD_and, hbit 31 (by decide), hbit 30 (by decide), Bool.and_false, and_self]

/-- What R7 asks of the parameters that the loop uses. -/
theorem cfg_of_wf {c : Config} (h : c.wf = true) :
    1 ≤ c.negMaxTries ∧ c.hostOcrMask &&& 0xC0000000#32 = 0#32 := by
  simp only [Config.wf, Bool.and_eq_true, decide_eq_true_eq] at h
  obtain ⟨⟨⟨⟨htries, -⟩, -⟩, hmask⟩, -⟩ := h
  exact ⟨htries, hmask⟩

/-- The end adds at most a delay to the trace, and leaves the loop's registers alone. -/
theorem NegEnded.last (h : NegEnded ok v t) :
    ∃ last, t.trace = last ++ v.trace ∧ framesOf last = [] ∧ NegKept v t ∧ t.tries = v.tries ∧ v.nowMs ≤ t.nowMs ∧
      (last = [] ∨ (ok = false ∧ v.cfg.negRecheck = true ∧ ∃ d, last = [⟨.delayMs Config.negDelayMs, d⟩])) ∧
      (ok = true → Negotiated t) ∧ (ok = false → negCeiling t = true) := by
  obtain ⟨rfl, hgood, hfail⟩ | ⟨rfl, hre, rfl, hceil⟩ := h
  · exact ⟨[], rfl, rfl, ⟨rfl, rfl, rfl, rfl⟩, rfl, le_rfl, .inl rfl, hgood, hfail⟩
  · exact ⟨[_], rfl, rfl, negKept_delayMs _ v, rfl, (forward_delayMs _ v).nowMs, .inr ⟨rfl, hre, _, rfl⟩, nofun,
      fun _ => hceil⟩

theorem length_framesOf_negotiateLoop (hN : 1 ≤ s.cfg.negMaxTries) (h : negotiateLoop b s = .ok (ok, t)) :
    (framesOf t.trace).length ≤ (framesOf s.trace).length + opCondWidth b * s.cfg.negMaxTries := by
  obtain ⟨w, v, first, us, hfirst, hf, hkept, hone, hran⟩ := negotiateLoop_ran hN h
  obtain ⟨last, htrace, hlast, -⟩ := hran.ended.last
  have hturns := length_framesOf_turns hran.turns.spaced
  have hwidth := (length_of_mem_opCondFrames hf).2
  have hle : us.length + 1 ≤ s.cfg.negMaxTries := by
    have hbound := hran.bound
    rwa [hran.tries, hone, Nat.add_comm, hkept.cfg] at hbound
  have hmul := Nat.mul_le_mul_left (opCondWidth b) hle
  rw [Nat.mul_succ] at hmul
  rw [htrace, hran.turns.trace, hfirst.trace, framesOf_append, framesOf_append, framesOf_append, hlast,
    List.append_nil, List.length_append, List.length_append]
  show (framesOf s.trace).length + _ + _ ≤ _
  omega

end negotiate

/-- Settles O35, by the first try and the turns of the loop (`negotiateLoop_ran`). -/
theorem negotiationIsBounded : Obligations.NegotiationIsBounded := by
  intro b s t ok hwf h
  obtain ⟨hN, hmask⟩ := cfg_of_wf hwf
  have hframes := length_framesOf_negotiateLoop hN h
  have hwidth := Nat.mul_le_mul_right s.cfg.negMaxTries (opCondWidth_le b)
  obtain ⟨w, v, first, us, hfirst, hf, hkept, hone, hturns, hbefore, hkept', htries, hbound, hended⟩ :=
    negotiateLoop_ran hN h
  obtain ⟨last, htrace, -, hkept'', htries', htime, hlast, hgood, hfail⟩ := hended.last
  have hk := (hkept.trans hkept').trans hkept''
  have harg : t.negArg = (negEntered s).negArg := hk.negArg
  have hbits := masked_bits (ocr := s.ocr) hmask
  have hstart : s.nowMs ≤ w.nowMs := hfirst.time
  have hspent := hturns.time
  have hN' : w.cfg.negMaxTries = s.cfg.negMaxTries := congrArg Config.negMaxTries hkept.cfg
  rw [hkept.rca, hkept.negArg] at hturns
  have before (u : LoopTurn) (hu : u ∈ us) := (hbefore u hu).of_negKept hkept
  refine ⟨hk.negT0, harg, harg ▸ hbits.1, harg ▸ hbits.2, by omega, by omega, ?_, fun hok => hgood hok,
    fun hok => ?_, by omega, us, first, last, by omega, ?_, harg ▸ hf, hfirst.undelayed,
    harg ▸ spacedTurns_mono hstart hturns.spaced, ?_, fun u hu => (before u hu).1, fun hre u hu => (before u hu).2 hre,
    ?_⟩
  · rw [show t.tries - 1 = us.length by omega]
    omega
  · have hceil := (negCeiling_eq_true_iff t).mp (hfail hok)
    rwa [hk.cfg] at hceil
  · rw [htrace, hturns.trace, hfirst.trace]
    simp [negEntered]
  · exact fun u hu e he => (hfirst.within e he).2.trans (hturns.spaced.waited u hu).1
  · rwa [(hkept.trans hkept').cfg] at hlast

end Sys2Proof.Proofs

/-! SUPPORT. The rules of the acquisition: what each sends and leaves, where it goes, and what the session holds then. -/

namespace Sys2Proof.Proofs

open Sys2Proof.Machine Sys2Proof.Laws

/-! ### A part of an ACQUIRE -/

/-- The fields that no part of an ACQUIRE writes (R220). -/
def untouched (s : State) : List Host.Cell × Desc × Config × List Byte × RfState × Block :=
  (s.caller, s.desc, s.cfg, s.port, s.rfState, s.cache.buf)

/-- A part of an ACQUIRE has run: these frames went out, as many answers were taken and at least `n` milliseconds passed.
The identification clock runs once a frame has gone out, the flags are 0 after it (R200, R346), and a narrow bus and an
empty cache stay so. -/
structure Moved (s t : State) (fs : List Frame) (n : Nat) : Prop where
  same    : untouched t = untouched s
  wire    : framesOf t.trace = framesOf s.trace ++ fs
  card    : t.card = s.card.drop fs.length
  time    : s.nowMs + n ≤ t.nowMs
  clkRun  : s.cfg.realization ≠ .bitPulse → t.clkRun = s.clkRun
  rest    : (t.clkSel = .ident ∧ t.st = Flags.clear) ∨ (fs = [] ∧ t.clkSel = s.clkSel ∧ t.st = s.st)
  busWide : s.busWide = false → t.busWide = false
  base    : s.cache.base = Config.cacheInvalid → t.cache.base = Config.cacheInvalid

section moved
variable {s t u : State} {fs gs : List Frame} {n m : Nat} {c : Cmd} {d : Descriptor} {a : Word} {b : Branch}
  {st : Status}

theorem Moved.cfg (h : Moved s t fs n) : t.cfg = s.cfg := congrArg (·.2.2.1) h.same

theorem Moved.trans (h : Moved s t fs n) (k : Moved t u gs m) : Moved s u (fs ++ gs) (n + m) where
  same := k.same.trans h.same
  wire := by rw [k.wire, h.wire, List.append_assoc]
  card := by rw [k.card, h.card, List.drop_drop, List.length_append]
  time := by
    have h1 := h.time
    have h2 := k.time
    omega
  clkRun hr := (k.clkRun (h.cfg ▸ hr)).trans (h.clkRun hr)
  rest := by
    rcases k.rest with hk | ⟨rfl, hclk, hst⟩
    · exact .inl hk
    · rw [List.append_nil, hclk, hst]
      exact h.rest
  busWide := k.busWide ∘ h.busWide
  base := k.base ∘ h.base

/-- The block's own writes: the session, the sequencer's registers and what was returned. -/
theorem moved_write (x : Session) (a : AcqState) (r : AcqResult) (n t0 : Nat) (o m : Word) (sdOut mmcOut : Bool)
    (res : Result) (s : State) :
    Moved s { s with session := x, acqState := a, acqResult := r, tries := n, ocr := o, negArg := m, negT0 := t0,
                     sdTimedOut := sdOut, mmcTimedOut := mmcOut, result := res } [] 0 :=
  ⟨rfl, (List.append_nil _).symm, rfl, le_rfl, fun _ => rfl, .inr ⟨rfl, rfl, rfl⟩, id, id⟩

/-- A part with a write of the block's own after it. -/
theorem Moved.write (h : Moved s t fs n) (k : Moved t u [] 0) : Moved s u fs n := by
  simpa using h.trans k

theorem moved_sessionClear (s : State) : Moved s (sessionClear s) [] 0 :=
  ⟨rfl, (List.append_nil _).symm, rfl, le_rfl, fun _ => rfl, .inr ⟨rfl, rfl, rfl⟩, fun _ => rfl, fun _ => rfl⟩

theorem moved_delayMs (n : Nat) (s : State) : Moved s (delayMs n s) [] n :=
  ⟨rfl, by simp, rfl, by simp, fun _ => rfl, .inr ⟨rfl, rfl, rfl⟩, id, id⟩

/-- A command at the identification clock, without a data phase (R191, R200). -/
theorem moved_of_executed (e : Executed d a s t) (hls : d.ls = true) (hd : d.data = false)
    (hwire : framesOf t.trace = framesOf s.trace ++ fs) (hcard : t.card = s.card.drop fs.length)
    (htime : s.nowMs + n ≤ t.nowMs) : Moved s t fs n := by
  have f := e.frame
  have hcache := e.cache hd
  have hclock : t.clkSel = .ident := by rw [e.clock, hls]; rfl
  refine ⟨?_, hwire, hcard, htime, fun hr => e.clkRun.trans (if_neg hr), .inl ⟨hclock, e.flags⟩,
    fun hb => f.busWide.trans hb, fun hb => hcache ▸ hb⟩
  simp only [untouched, f.caller, f.desc, f.cfg, f.port, f.rfState, hcache]

/-- The row is one exchange at the identification clock: every command of the acquisition but ACMD41 (R101). -/
def IdentRow (c : Cmd) : Prop := c.descriptor.ls = true ∧ c.descriptor.acmd = false ∧ c.descriptor.data = false

theorem moved_executeCmd (hc : IdentRow c) (h : executeCmd c a s = .ok (st, t)) :
    Moved s t [cmdFrame c.descriptor.index a] 0 := by
  obtain ⟨hls, hacmd, hd⟩ := hc
  have e := executed_of_executeCmd h
  obtain ⟨fs, hwire, hcard, hfs⟩ := e.wire
  obtain rfl : fs = [cmdFrame c.descriptor.index a] := by simpa [hacmd] using hfs
  exact moved_of_executed e hls hd hwire hcard e.time

theorem opCond_row (b : Branch) : (opCondCmd b).descriptor.ls = true ∧ (opCondCmd b).descriptor.data = false := by
  cases b <;> exact ⟨rfl, rfl⟩

theorem moved_opCond (h : opCond b a s = .ok (st, t)) : ∃ fs ∈ opCondFrames b s.session.rca a, Moved s t fs 0 := by
  obtain ⟨fs, hfs, hwire, hcard⟩ := frames_of_opCond h
  rw [opCond_eq_executeCmd] at h
  have e := executed_of_executeCmd h
  exact ⟨fs, hfs, moved_of_executed e (opCond_row b).1 (opCond_row b).2 hwire hcard e.time⟩

end moved

/-! ### Inside a loop -/

/-- The indices of an operating-condition command with its APP_CMD (R226). -/
def opCondIndexes : Branch → List (BitVec 6)
  | .sd => [55#6, 41#6]
  | .mmc => [1#6]

theorem index_of_opCondFrames {b : Branch} {rca : BitVec 16} {a : Word} {fs : List Frame}
    (h : fs ∈ opCondFrames b rca a) : ∀ f ∈ fs, frameIndex f ∈ opCondIndexes b := by
  cases b
  · simp only [opCondFrames, List.mem_cons, List.not_mem_nil, or_false] at h
    obtain rfl | rfl := h <;> simp [opCondIndexes]
  · simp only [opCondFrames, List.mem_singleton] at h
    subst h
    simp [opCondIndexes]

/-- What a loop of this branch has done by some point in it: frames of its command went out, and of the session and the
time-out marks only `acquire_time_ms` was written (R227, R228). -/
structure InLoop (b : Branch) (s t : State) : Prop where
  sent        : ∃ fs, Moved s t fs 0 ∧ ∀ f ∈ fs, frameIndex f ∈ opCondIndexes b
  session     : ∃ ms, t.session = { s.session with acquireTimeMs := ms }
  sdTimedOut  : t.sdTimedOut = s.sdTimedOut
  mmcTimedOut : t.mmcTimedOut = s.mmcTimedOut

section inLoop
variable {b : Branch} {s t u : State} {a : Word} {st : Status} {e : TryEnd} {ok : Bool}

theorem InLoop.trans (h : InLoop b s t) (k : InLoop b t u) : InLoop b s u where
  sent := by
    obtain ⟨fs, hm, hfs⟩ := h.sent
    obtain ⟨gs, km, kgs⟩ := k.sent
    exact ⟨fs ++ gs, hm.trans km, List.forall_mem_append.mpr ⟨hfs, kgs⟩⟩
  session := by
    obtain ⟨ms, hs⟩ := h.session
    obtain ⟨ms', ks⟩ := k.session
    exact ⟨ms', by rw [ks, hs]⟩
  sdTimedOut := k.sdTimedOut.trans h.sdTimedOut
  mmcTimedOut := k.mmcTimedOut.trans h.mmcTimedOut

theorem inLoop_opCond (h : opCond b a s = .ok (st, t)) : InLoop b s t := by
  obtain ⟨fs, hfs, hm⟩ := moved_opCond h
  have f := (executed_of_opCond h).frame
  exact ⟨⟨fs, hm, index_of_opCondFrames hfs⟩, ⟨_, f.session⟩, f.sdTimedOut, f.mmcTimedOut⟩

theorem inLoop_delayMs (n : Nat) (s : State) : InLoop b s (delayMs n s) := by
  have hm := moved_delayMs n s
  exact ⟨⟨[], { hm with time := (Nat.le_add_right _ n).trans hm.time }, nofun⟩, ⟨_, rfl⟩, rfl, rfl⟩

/-- The loop's own writes. -/
theorem inLoop_write (n t0 : Nat) (o m ms : Word) (s : State) :
    InLoop b s { s with tries := n, ocr := o, negArg := m, negT0 := t0,
                        session := { s.session with acquireTimeMs := ms } } :=
  ⟨⟨[], moved_write _ _ _ _ _ _ _ _ _ _ s, nofun⟩, ⟨_, rfl⟩, rfl, rfl⟩

theorem inLoop_pollTry (h : pollTry b s = .ok (e, t)) : InLoop b s t := by
  obtain ⟨st, u, hx, hend⟩ := pollTry_cases h
  have hu : InLoop b s u := (inLoop_delayMs _ s).trans (inLoop_opCond hx)
  obtain ⟨-, rfl, -⟩ | ⟨-, rfl, -⟩ := hend
  · exact hu.trans (inLoop_write _ _ _ _ u.session.acquireTimeMs u)
  · exact hu.trans (inLoop_write _ _ _ _ u.session.acquireTimeMs u)

theorem inLoop_negTry (h : negTry b s = .ok (e, t)) : InLoop b s t := by
  obtain ⟨st, u, hx, hend⟩ := negTry_cases h
  obtain ⟨-, -, -, ms, rfl⟩ | ⟨-, rfl⟩ := hend
  · exact (inLoop_opCond hx).trans (inLoop_write _ _ _ _ ms u)
  · exact (inLoop_opCond hx).trans (inLoop_write _ _ _ _ u.session.acquireTimeMs u)

theorem inLoop_pollLoop (h : pollLoop b s = .ok (ok, t)) : InLoop b s t :=
  pollTurns_keeps (P := InLoop b s) (fun _ _ _ k hx => k.trans (inLoop_pollTry hx)) _
    (inLoop_write _ _ _ _ s.session.acquireTimeMs s) h

theorem inLoop_negotiateLoop (h : negotiateLoop b s = .ok (ok, t)) : InLoop b s t :=
  negTurns_keeps (P := InLoop b s) (fun _ _ _ k hx => k.trans (inLoop_negTry hx))
    (fun _ k => k.trans (inLoop_delayMs _ _)) _ (inLoop_write _ _ _ _ s.session.acquireTimeMs s) h

/-- The frames of a whole loop, by what its turns say of their number. -/
theorem InLoop.frames {n : Nat} (h : InLoop b s t)
    (hlen : (framesOf t.trace).length ≤ (framesOf s.trace).length + n) :
    ∃ fs, Moved s t fs 0 ∧ (∀ f ∈ fs, frameIndex f ∈ opCondIndexes b) ∧ fs.length ≤ n := by
  obtain ⟨fs, hm, hfs⟩ := h.sent
  rw [hm.wire, List.length_append] at hlen
  exact ⟨fs, hm, hfs, by omega⟩

end inLoop

end Sys2Proof.Proofs

/-! SUPPORT. The rules of the acquisition, one by one and all together. -/

namespace Sys2Proof.Proofs

open Sys2Proof.Machine Sys2Proof.Laws

/-! ### The rules with a command of their own, taken apart -/

section cases
variable {s t : State}

/-- State `TrySdOpCond` (R223). -/
theorem acqTrySd_cases (h : acqTrySd s = .ok t) : ∃ st u, opCond .sd 0 s = .ok (st, u) ∧
    ((st = .ok ∧ t = { u with ocr := decodeOcr u.rb, acqState := .checkSdOcr }) ∨
     (st = .timeout ∧ t = { sessionClear { u with sdTimedOut := true } with acqState := .tryMmcOpCond }) ∨
     (st ≠ .ok ∧ st ≠ .timeout ∧ t = { u with acqState := .failed })) := by
  unfold acqTrySd at h
  split at h
  · cases h
  next st u hx =>
  refine ⟨st, u, hx, ?_⟩
  split at h
  · cases h
    exact .inl ⟨‹_›, rfl⟩
  · split at h
    · cases h
      exact .inr (.inl ⟨‹_›, rfl⟩)
    · cases h
      exact .inr (.inr ⟨‹_›, ‹_›, rfl⟩)

/-- State `TryMmcOpCond` (R239). -/
theorem acqTryMmc_cases (h : acqTryMmc s = .ok t) : ∃ st u, opCond .mmc 0 s = .ok (st, u) ∧
    ((st = .ok ∧ t = { u with ocr := decodeOcr u.rb, acqState := .checkMmcOcr }) ∨
     (st = .timeout ∧ t = { u with mmcTimedOut := true, acqState := .failed }) ∨
     (st ≠ .ok ∧ st ≠ .timeout ∧ t = { u with acqState := .failed })) := by
  unfold acqTryMmc at h
  split at h
  · cases h
  next st u hx =>
  refine ⟨st, u, hx, ?_⟩
  split at h
  · cases h
    exact .inl ⟨‹_›, rfl⟩
  · split at h
    · cases h
      exact .inr (.inl ⟨‹_›, rfl⟩)
    · cases h
      exact .inr (.inr ⟨‹_›, ‹_›, rfl⟩)

/-- State `Reset` (R221): CMD0, CMD8 if it is enabled, and nothing of the command frame changes. -/
theorem acqReset_cases (h : acqReset s = .ok t) : ∃ u fs, Moved s u fs 0 ∧ CommandFrame s u ∧
    (fs = [cmdFrame 0#6 0#32] ∨ fs = [cmdFrame 0#6 0#32, cmdFrame 8#6 Config.ifCondArg]) ∧
    t = { u with acqState := .trySdOpCond } := by
  unfold acqReset at h
  split at h
  · cases h
  next st u hx =>
  have hu := moved_executeCmd (c := .goIdleState) ⟨rfl, rfl, rfl⟩ hx
  have fu := (executed_of_executeCmd hx).frame
  split at h
  · split at h
    · cases h
    next st' v hy =>
    cases h
    exact ⟨v, _, hu.trans (moved_executeCmd (c := .sendIfCond) ⟨rfl, rfl, rfl⟩ hy),
      fu.trans (executed_of_executeCmd hy).frame, .inr rfl, rfl⟩
  · cases h
    exact ⟨u, _, hu, fu, .inl rfl, rfl⟩

end cases

/-! ### The transition table -/

section marks
variable {s t : State} {next : AcqState} {b : Branch} {c : Cmd} {a : Word} {k : State → State}

/-- A rule leaves the time-out marks as they are. -/
def KeepsMarks (s t : State) : Prop := t.sdTimedOut = s.sdTimedOut ∧ t.mmcTimedOut = s.mmcTimedOut

theorem keepsMarks_of_frame (f : CommandFrame s t) : KeepsMarks s t := ⟨f.sdTimedOut, f.mmcTimedOut⟩

theorem InLoop.keepsMarks (h : InLoop b s t) : KeepsMarks s t := ⟨h.sdTimedOut, h.mmcTimedOut⟩

theorem keepsMarks_afterLoop {r : Res Bool} (hr : ∀ {ok u}, r = .ok (ok, u) → InLoop b s u)
    (h : afterLoop next r = .ok t) : KeepsMarks s t := by
  obtain ⟨ok, u, hx, rfl⟩ := afterLoop_cases h
  exact (hr hx).keepsMarks

theorem keepsMarks_required (hk : ∀ u, KeepsMarks u (k u)) (h : required c a k s = .ok t) : KeepsMarks s t := by
  obtain ⟨st, u, hx, hend⟩ := required_cases h
  obtain ⟨h1, h2⟩ := keepsMarks_of_frame (executed_of_executeCmd hx).frame
  obtain ⟨-, rfl⟩ | ⟨-, rfl⟩ := hend
  · exact ⟨(hk u).1.trans h1, (hk u).2.trans h2⟩
  · exact ⟨h1, h2⟩

/-- Every rule but those of the two probes leaves both marks (R223, R239). -/
theorem keepsMarks_acqStep (hsd : s.acqState ≠ .trySdOpCond) (hmmc : s.acqState ≠ .tryMmcOpCond)
    (h : acqStep s = .ok t) : KeepsMarks s t := by
  unfold acqStep at h
  revert h
  cases hs : s.acqState with
  | trySdOpCond => exact absurd hs hsd
  | tryMmcOpCond => exact absurd hs hmmc
  | idle | done | failed => exact fun h => by cases h; exact ⟨rfl, rfl⟩
  | reset =>
    intro h
    obtain ⟨u, fs, -, f, -, rfl⟩ := acqReset_cases h
    exact ⟨f.sdTimedOut, f.mmcTimedOut⟩
  | checkSdOcr | checkMmcOcr => exact fun h => by cases h; exact ⟨rfl, rfl⟩
  | pollSdOcr | pollMmcOcr => exact keepsMarks_afterLoop inLoop_pollLoop
  | negotiateSdOcr | negotiateMmcOcr => exact keepsMarks_afterLoop inLoop_negotiateLoop
  | getCidSd | getCidMmc | getRcaSd | setRcaMmc | getCsdSd | getCsdMmc =>
    exact keepsMarks_required fun _ => ⟨rfl, rfl⟩

/-- The edges of a state with a required command (R230). -/
theorem required_edge (h : required c a k s = .ok t) (hk : ∀ u, (k u).acqState = next) :
    ∃ st u, executeCmd c a s = .ok (st, u) ∧ t.acqState = if st = .ok then next else .failed := by
  obtain ⟨st, u, hx, ⟨rfl, rfl⟩ | ⟨hst, rfl⟩⟩ := required_cases h
  · exact ⟨_, u, hx, hk u⟩
  · exact ⟨st, u, hx, (if_neg hst).symm⟩

/-- The edges of a loop's state (R225, R232, R241, R242). -/
theorem afterLoop_edge {r : Res Bool} (h : afterLoop next r = .ok t) :
    ∃ ok u, r = .ok (ok, u) ∧ t.acqState = if ok then next else .failed := by
  obtain ⟨ok, u, hx, rfl⟩ := afterLoop_cases h
  exact ⟨ok, u, hx, rfl⟩

/-- The edges of `TrySdOpCond`, and its mark. -/
theorem acqTrySd_edge (h : acqTrySd s = .ok t) : ∃ st u, executeCmd .sdSendOpCond 0 s = .ok (st, u) ∧
    t.acqState = (if st = .ok then .checkSdOcr else if st = .timeout then .tryMmcOpCond else .failed) ∧
    (t.sdTimedOut = if st = .timeout then true else s.sdTimedOut) ∧ t.mmcTimedOut = s.mmcTimedOut := by
  obtain ⟨st, u, hx, hend⟩ := acqTrySd_cases h
  obtain ⟨hsd, hmmc⟩ := keepsMarks_of_frame (executed_of_opCond hx).frame
  refine ⟨st, u, hx, ?_⟩
  obtain ⟨rfl, rfl⟩ | ⟨rfl, rfl⟩ | ⟨hok, htime, rfl⟩ := hend
  · exact ⟨rfl, hsd, hmmc⟩
  · exact ⟨rfl, rfl, hmmc⟩
  · rw [if_neg hok, if_neg htime, if_neg htime]
    exact ⟨rfl, hsd, hmmc⟩

/-- The edges of `TryMmcOpCond`, and its mark. -/
theorem acqTryMmc_edge (h : acqTryMmc s = .ok t) : ∃ st u, executeCmd .sendOpCond 0 s = .ok (st, u) ∧
    t.acqState = (if st = .ok then .checkMmcOcr else .failed) ∧
    (t.mmcTimedOut = if st = .timeout then true else s.mmcTimedOut) ∧ t.sdTimedOut = s.sdTimedOut := by
  obtain ⟨st, u, hx, hend⟩ := acqTryMmc_cases h
  obtain ⟨hsd, hmmc⟩ := keepsMarks_of_frame (executed_of_opCond hx).frame
  refine ⟨st, u, hx, ?_⟩
  obtain ⟨rfl, rfl⟩ | ⟨rfl, rfl⟩ | ⟨hok, htime, rfl⟩ := hend
  · exact ⟨rfl, hmmc, hsd⟩
  · exact ⟨rfl, rfl, hsd⟩
  · rw [if_neg hok, if_neg htime]
    exact ⟨rfl, hmmc, hsd⟩

end marks

/-- Settles O33: the rule of each state by its own edges, the marks by `keepsMarks_acqStep`. -/
theorem acquisitionFollowsTheTransitionTable : Obligations.AcquisitionFollowsTheTransitionTable := by
  refine ⟨fun s => ⟨rfl, rfl, rfl⟩, fun s t h => ⟨fun hout => acqStep_outside ?_ h, fun hs => ?_, fun hs => ?_,
    fun hs => ?_, fun hs => ?_, fun hs => ?_, fun hs => ?_, fun hs => ?_, fun hs => ?_, fun hs => ?_, fun hs => ?_,
    fun hs => ?_, fun hs => ?_, fun hs => ?_, fun hs => ?_, fun hs => ?_, fun hs => ?_, fun hs => ?_⟩⟩
  case refine_1 => simpa [AcqState.terminal] using hout
  case refine_4 =>
    by_cases hmmc : s.acqState = .tryMmcOpCond
    · rw [acqStep, hmmc] at h
      obtain ⟨st, u, -, -, -, hsd⟩ := acqTryMmc_edge h
      exact hsd
    · exact (keepsMarks_acqStep hs hmmc h).1
  case refine_12 =>
    by_cases hsd : s.acqState = .trySdOpCond
    · rw [acqStep, hsd] at h
      obtain ⟨st, u, -, -, -, hmmc⟩ := acqTrySd_edge h
      exact hmmc
    · exact (keepsMarks_acqStep hsd hs h).2
  all_goals rw [acqStep, hs] at h
  · obtain ⟨u, fs, -, -, -, rfl⟩ := acqReset_cases h
    rfl
  · obtain ⟨st, u, hx, hgoes, hmark, -⟩ := acqTrySd_edge h
    exact ⟨st, u, hx, hgoes, hmark⟩
  · cases h
    rfl
  · exact afterLoop_edge h
  · exact afterLoop_edge h
  · exact required_edge h fun _ => rfl
  · exact required_edge h fun _ => rfl
  · exact required_edge h fun _ => rfl
  · obtain ⟨st, u, hx, hgoes, hmark, -⟩ := acqTryMmc_edge h
    exact ⟨st, u, hx, hgoes, hmark⟩
  · cases h
    rfl
  · exact afterLoop_edge h
  · exact afterLoop_edge h
  · exact required_edge h fun _ => rfl
  · exact required_edge h fun _ => rfl
  · exact required_edge h fun _ => rfl

end Sys2Proof.Proofs

/-! SUPPORT. All rules of an acquisition together: the frames, in number and order, and the session at each state. -/

namespace Sys2Proof.Proofs

open Sys2Proof.Machine Sys2Proof.Laws

/-! ### What one rule sends -/

/-- The states whose rule sends SEND_CSD (R235, R245). -/
def sendsCsd : AcqState → Bool
  | .getCsdSd | .getCsdMmc => true
  | _ => false

/-- The indices of the frames of each state's rule (R221 to R246). -/
def ruleIndexes : AcqState → List (BitVec 6)
  | .reset => [0#6, 8#6]
  | .trySdOpCond | .pollSdOcr | .negotiateSdOcr => opCondIndexes .sd
  | .tryMmcOpCond | .pollMmcOcr | .negotiateMmcOcr => opCondIndexes .mmc
  | .getCidSd | .getCidMmc => [2#6]
  | .getRcaSd | .setRcaMmc => [3#6]
  | .getCsdSd | .getCsdMmc => [9#6]
  | .idle | .checkSdOcr | .checkMmcOcr | .done | .failed => []

/-- The most frames that can still go out from each state on (R250). -/
def framesLeft (c : Config) : AcqState → Nat
  | .reset => 2 + (2 * (1 + Config.pollTries + c.negMaxTries) + 3)
  | .trySdOpCond => 2 * (1 + Config.pollTries + c.negMaxTries) + 3
  | .checkSdOcr | .pollSdOcr => 2 * Config.pollTries + 2 * c.negMaxTries + 3
  | .negotiateSdOcr => 2 * c.negMaxTries + 3
  | .tryMmcOpCond => 1 + Config.pollTries + c.negMaxTries + 3
  | .checkMmcOcr | .pollMmcOcr => Config.pollTries + c.negMaxTries + 3
  | .negotiateMmcOcr => c.negMaxTries + 3
  | .getCidSd | .getCidMmc => 3
  | .getRcaSd | .setRcaMmc => 2
  | .getCsdSd | .getCsdMmc => 1
  | .idle | .done | .failed => 0

/-- A rule ran and sent these frames: of its own indices, no more than can be spared, at least one in `Reset`; a state
that sends SEND_CSD is entered by a rule that sent CMD3, and its rule sends that one frame and ends the acquisition. -/
structure RuleRan (s t : State) (fs : List Frame) : Prop where
  moved : Moved s t fs 0
  index : ∀ f ∈ fs, frameIndex f ∈ ruleIndexes s.acqState
  count : 1 ≤ s.cfg.negMaxTries → fs.length + framesLeft s.cfg t.acqState ≤ framesLeft s.cfg s.acqState
  began : s.acqState = .reset → fs ≠ []
  asked : sendsCsd t.acqState = true → ∃ f ∈ fs, frameIndex f = 3#6
  csd   : sendsCsd s.acqState = true →
    fs = [cmdFrame 9#6 (rcaArg s.session.rca)] ∧ t.session.rca = s.session.rca ∧ t.acqState.terminal = true

section rules
variable {s t u : State} {fs : List Frame} {a b next : AcqState} {c : Cmd} {arg : Word} {x : State → Session}
  {br : Branch} {ok : Bool}

/-- A rule of any other state that goes to one of two states. -/
theorem RuleRan.of_edges (hs : s.acqState = a) (hm : Moved s t fs 0) (hidx : ∀ f ∈ fs, frameIndex f ∈ ruleIndexes a)
    (ht : t.acqState = next ∨ t.acqState = b)
    (hcount : 1 ≤ s.cfg.negMaxTries →
      fs.length + framesLeft s.cfg next ≤ framesLeft s.cfg a ∧ fs.length + framesLeft s.cfg b ≤ framesLeft s.cfg a)
    (hplain : sendsCsd a = false ∧ a ≠ .reset ∧ sendsCsd next = false ∧ sendsCsd b = false) : RuleRan s t fs := by
  obtain ⟨ha, hreset, hnext, hb⟩ := hplain
  subst hs
  refine ⟨hm, hidx, fun hN => ?_, fun h => absurd h hreset, fun h => ?_, fun h => by simp [ha] at h⟩
  · rcases ht with ht | ht
    · exact ht ▸ (hcount hN).1
    · exact ht ▸ (hcount hN).2
  · rcases ht with ht | ht
    · simp [ht, hnext] at h
    · simp [ht, hb] at h

/-- `required` sends one frame, and the rule goes on or fails (R230). -/
theorem moved_required (hc : IdentRow c)
    (h : required c arg (fun u => { u with session := x u, acqState := next }) s = .ok t) :
    Moved s t [cmdFrame c.descriptor.index arg] 0 ∧ (t.acqState = next ∨ t.acqState = .failed) := by
  obtain ⟨st, u, hx, hend⟩ := required_cases h
  have hu := moved_executeCmd hc hx
  obtain ⟨-, rfl⟩ | ⟨-, rfl⟩ := hend
  · exact ⟨hu.write (moved_write _ _ _ _ _ _ _ _ _ _ u), .inl rfl⟩
  · exact ⟨hu.write (moved_write _ _ _ _ _ _ _ _ _ _ u), .inr rfl⟩

theorem ruleRan_required (hs : s.acqState = a) (hc : IdentRow c)
    (h : required c arg (fun u => { u with session := x u, acqState := next }) s = .ok t)
    (hidx : c.descriptor.index ∈ ruleIndexes a) (hcount : ∀ cfg, 1 + framesLeft cfg next ≤ framesLeft cfg a)
    (hplain : sendsCsd a = false ∧ a ≠ .reset ∧ sendsCsd next = false) : ∃ fs, RuleRan s t fs := by
  obtain ⟨hm, ht⟩ := moved_required hc h
  obtain ⟨ha, hreset, hn⟩ := hplain
  exact ⟨_, .of_edges hs hm (by simpa using hidx) ht
    (fun _ => ⟨hcount _, (Nat.add_le_add_left (Nat.zero_le _) 1).trans (hcount _)⟩) ⟨ha, hreset, hn, rfl⟩⟩

/-- A rule with CMD3 goes to the state that sends SEND_CSD (R234, R244). -/
theorem ruleRan_rca (hs : s.acqState = a) (hc : IdentRow c)
    (h : required c arg (fun u => { u with session := x u, acqState := next }) s = .ok t) (hidx : c.descriptor.index = 3#6)
    (ha : a = .getRcaSd ∨ a = .setRcaMmc) (hn : next = .getCsdSd ∨ next = .getCsdMmc) : ∃ fs, RuleRan s t fs := by
  obtain ⟨hm, ht⟩ := moved_required hc h
  subst hs
  have hleft (cfg : Config) : framesLeft cfg s.acqState = 2 ∧ framesLeft cfg next = 1 := by
    rcases ha with ha | ha <;> rcases hn with hn | hn <;> rw [ha, hn] <;> exact ⟨rfl, rfl⟩
  have hstate : ruleIndexes s.acqState = [3#6] ∧ s.acqState ≠ .reset ∧ sendsCsd s.acqState = false := by
    rcases ha with ha | ha <;> rw [ha] <;> exact ⟨rfl, nofun, rfl⟩
  obtain ⟨hindexes, hreset, hcsd⟩ := hstate
  refine ⟨_, hm, by simp [hindexes, hidx], fun _ => ?_, fun h => absurd h hreset, fun _ =>
    ⟨_, List.mem_singleton_self _, by rw [frameIndex_cmdFrame, hidx]⟩, fun h => by simp [hcsd] at h⟩
  rcases ht with ht | ht
  · rw [ht, (hleft _).1, (hleft _).2]
    simp
  · rw [ht, (hleft _).1]
    simp [framesLeft]

theorem moved_identified (sd : Bool) (s : State) : Moved s (identified sd s) [] 0 :=
  moved_write (identified sd s).session .done _ _ _ _ _ _ _ _ s

/-- States `GetCsdSd` and `GetCsdMmc` (R235, R245): the command, then the card is identified. -/
theorem acqGetCsd_executed {sd : Bool} (h : acqGetCsd sd s = .ok t) :
    ∃ st u, executeCmd .sendCsd (rcaArg s.session.rca) s = .ok (st, u) ∧
      ((st = .ok ∧ t = identified sd u) ∨ (st ≠ .ok ∧ t = { u with acqState := .failed })) := by
  obtain ⟨st, u, hx, ⟨hst, rfl⟩ | ⟨hst, rfl⟩⟩ := required_cases h
  · exact ⟨st, u, hx, .inl ⟨hst, rfl⟩⟩
  · exact ⟨st, u, hx, .inr ⟨hst, rfl⟩⟩

/-- The rule with SEND_CSD ends the acquisition. -/
theorem ruleRan_csd {sd : Bool} (hs : s.acqState = a) (ha : a = .getCsdSd ∨ a = .getCsdMmc)
    (h : acqGetCsd sd s = .ok t) : ∃ fs, RuleRan s t fs := by
  obtain ⟨st, u, hx, hend⟩ := acqGetCsd_executed h
  have hu := moved_executeCmd (c := .sendCsd) ⟨rfl, rfl, rfl⟩ hx
  have hrca : u.session.rca = s.session.rca := congrArg Session.rca (executed_of_executeCmd hx).frame.session
  obtain ⟨hm, ht, hrca⟩ : Moved s t [cmdFrame 9#6 (rcaArg s.session.rca)] 0 ∧
      (t.acqState = .done ∨ t.acqState = .failed) ∧ t.session.rca = s.session.rca := by
    obtain ⟨-, rfl⟩ | ⟨-, rfl⟩ := hend
    · exact ⟨hu.write (moved_identified sd u), .inl rfl, hrca⟩
    · exact ⟨hu.write (moved_write _ _ _ _ _ _ _ _ _ _ u), .inr rfl, hrca⟩
  have hterm : framesLeft s.cfg t.acqState = 0 ∧ sendsCsd t.acqState = false ∧ t.acqState.terminal = true := by
    rcases ht with ht | ht <;> rw [ht] <;> exact ⟨rfl, rfl, rfl⟩
  have hstate : ruleIndexes s.acqState = [9#6] ∧ s.acqState ≠ .reset ∧ framesLeft s.cfg s.acqState = 1 := by
    rcases ha with ha | ha <;> rw [hs, ha] <;> exact ⟨rfl, nofun, rfl⟩
  obtain ⟨hleft, hcsd, hend⟩ := hterm
  obtain ⟨hindexes, hreset, hone⟩ := hstate
  exact ⟨_, hm, by simp [hindexes], fun _ => by simp [hleft, hone], fun h => absurd h hreset,
    fun h => by simp [hcsd] at h, fun _ => ⟨rfl, hrca, hend⟩⟩

/-- The rule of a loop's state (R225, R232, R241, R242). -/
theorem ruleRan_loop {n : Nat} {r : Res Bool} (hs : s.acqState = a) (h : afterLoop next r = .ok t)
    (hloop : ∀ {ok u}, r = .ok (ok, u) → InLoop br s u)
    (hlen : 1 ≤ s.cfg.negMaxTries → ∀ {ok u}, r = .ok (ok, u) →
      (framesOf u.trace).length ≤ (framesOf s.trace).length + n)
    (hidx : ruleIndexes a = opCondIndexes br) (hcount : n + framesLeft s.cfg next ≤ framesLeft s.cfg a)
    (hplain : sendsCsd a = false ∧ a ≠ .reset ∧ sendsCsd next = false) : ∃ fs, RuleRan s t fs := by
  obtain ⟨ok, u, hx, rfl⟩ := afterLoop_cases h
  obtain ⟨fs, hm, hfs⟩ := (hloop hx).sent
  obtain ⟨ha, hreset, hn⟩ := hplain
  refine ⟨fs, .of_edges (next := next) (b := .failed) hs (hm.write (moved_write _ _ _ _ _ _ _ _ _ _ u)) (hidx ▸ hfs)
    (by cases ok <;> simp) (fun hN => ?_) ⟨ha, hreset, hn, rfl⟩⟩
  have hsent := hlen hN hx
  rw [hm.wire, List.length_append] at hsent
  have hfailed : framesLeft s.cfg .failed = 0 := rfl
  omega

theorem ruleRan_reset (hs : s.acqState = .reset) (h : acqReset s = .ok t) : ∃ fs, RuleRan s t fs := by
  obtain ⟨u, fs, hm, -, hfs, rfl⟩ := acqReset_cases h
  have hframes : (∀ f ∈ fs, frameIndex f ∈ ruleIndexes .reset) ∧ fs.length ≤ 2 ∧ fs ≠ [] := by
    rcases hfs with rfl | rfl <;> simp [ruleIndexes]
  obtain ⟨hidx, hlen, hne⟩ := hframes
  exact ⟨fs, hm.write (moved_write _ _ _ _ _ _ _ _ _ _ u), hs ▸ hidx,
    fun _ => hs ▸ Nat.add_le_add_right hlen _, fun _ => hne, nofun, fun h => by simp [hs, sendsCsd] at h⟩

theorem ruleRan_trySd (hs : s.acqState = .trySdOpCond) (h : acqTrySd s = .ok t) : ∃ fs, RuleRan s t fs := by
  obtain ⟨st, u, hx, hend⟩ := acqTrySd_cases h
  obtain ⟨fs, hfs, hu⟩ := moved_opCond hx
  have hlen : fs.length ≤ 2 := (length_of_mem_opCondFrames hfs).2
  have hm : Moved s t fs 0 := by
    obtain ⟨-, rfl⟩ | ⟨-, rfl⟩ | ⟨-, -, rfl⟩ := hend
    · exact hu.write (moved_write _ _ _ _ _ _ _ _ _ _ u)
    · exact ((hu.write (moved_write _ _ _ _ _ _ _ true _ _ u)).write (moved_sessionClear _)).write
        (moved_write _ _ _ _ _ _ _ _ _ _ _)
    · exact hu.write (moved_write _ _ _ _ _ _ _ _ _ _ u)
  have hgoes : (t.acqState = .checkSdOcr ∨ t.acqState = .tryMmcOpCond) ∨ t.acqState = .failed := by
    obtain ⟨-, rfl⟩ | ⟨-, rfl⟩ | ⟨-, -, rfl⟩ := hend
    · exact .inl (.inl rfl)
    · exact .inl (.inr rfl)
    · exact .inr rfl
  have hidx := index_of_opCondFrames hfs
  rcases hgoes with ht | ht
  · refine ⟨fs, .of_edges hs hm hidx ht (fun hN => ?_) ⟨rfl, nofun, rfl, rfl⟩⟩
    simp only [framesLeft, Config.pollTries]
    omega
  · refine ⟨fs, .of_edges (next := .failed) (b := .failed) hs hm hidx (.inl ht) (fun hN => ?_) ⟨rfl, nofun, rfl, rfl⟩⟩
    simp only [framesLeft, Config.pollTries]
    omega

theorem ruleRan_tryMmc (hs : s.acqState = .tryMmcOpCond) (h : acqTryMmc s = .ok t) : ∃ fs, RuleRan s t fs := by
  obtain ⟨st, u, hx, hend⟩ := acqTryMmc_cases h
  obtain ⟨fs, hfs, hu⟩ := moved_opCond hx
  have hlen : fs.length ≤ 1 := (length_of_mem_opCondFrames hfs).2
  have hm : Moved s t fs 0 := by
    obtain ⟨-, rfl⟩ | ⟨-, rfl⟩ | ⟨-, -, rfl⟩ := hend <;> exact hu.write (moved_write _ _ _ _ _ _ _ _ _ _ u)
  have hgoes : t.acqState = .checkMmcOcr ∨ t.acqState = .failed := by
    obtain ⟨-, rfl⟩ | ⟨-, rfl⟩ | ⟨-, -, rfl⟩ := hend
    · exact .inl rfl
    · exact .inr rfl
    · exact .inr rfl
  refine ⟨fs, .of_edges hs hm (index_of_opCondFrames hfs) hgoes (fun hN => ?_) ⟨rfl, nofun, rfl, rfl⟩⟩
  simp only [framesLeft, Config.pollTries]
  omega

theorem ruleRan_check {negotiate poll : AcqState} (hs : s.acqState = a)
    (hcount : framesLeft s.cfg negotiate ≤ framesLeft s.cfg a ∧ framesLeft s.cfg poll ≤ framesLeft s.cfg a)
    (hplain : sendsCsd a = false ∧ a ≠ .reset ∧ sendsCsd negotiate = false ∧ sendsCsd poll = false) :
    ∃ fs, RuleRan s (acqCheck negotiate poll s) fs :=
  ⟨[], .of_edges hs (moved_write _ _ _ _ _ _ _ _ _ _ s) nofun
    (by cases hready : ocrReady s.ocr <;> simp [acqCheck, hready]) (fun _ => by simpa using hcount) hplain⟩

/-- A rule of a state outside a running acquisition does nothing. -/
theorem ruleRan_outside (hout : s.acqState = .idle ∨ s.acqState = .done ∨ s.acqState = .failed) :
    RuleRan s s [] := by
  refine ⟨moved_write _ _ _ _ _ _ _ _ _ _ s, nofun, fun _ => by simp, ?_, ?_, ?_⟩ <;>
    rcases hout with hs | hs | hs <;> simp [hs, sendsCsd]

/-- Every rule. -/
theorem acqStep_ran (h : acqStep s = .ok t) : ∃ fs, RuleRan s t fs := by
  unfold acqStep at h
  revert h
  cases hs : s.acqState with
  | idle => exact fun h => by cases h; exact ⟨[], ruleRan_outside (.inl hs)⟩
  | done => exact fun h => by cases h; exact ⟨[], ruleRan_outside (.inr (.inl hs))⟩
  | failed => exact fun h => by cases h; exact ⟨[], ruleRan_outside (.inr (.inr hs))⟩
  | reset => exact ruleRan_reset hs
  | trySdOpCond => exact ruleRan_trySd hs
  | tryMmcOpCond => exact ruleRan_tryMmc hs
  | checkSdOcr =>
    intro h
    cases h
    exact ruleRan_check hs (by simp only [framesLeft]; omega) ⟨rfl, nofun, rfl, rfl⟩
  | checkMmcOcr =>
    intro h
    cases h
    exact ruleRan_check hs (by simp only [framesLeft]; omega) ⟨rfl, nofun, rfl, rfl⟩
  | pollSdOcr =>
    exact fun h => ruleRan_loop hs h inLoop_pollLoop (fun _ _ _ => length_framesOf_pollLoop) rfl
      (by simp only [framesLeft, opCondWidth]; omega) ⟨rfl, nofun, rfl⟩
  | pollMmcOcr =>
    exact fun h => ruleRan_loop hs h inLoop_pollLoop (fun _ _ _ => length_framesOf_pollLoop) rfl
      (by simp only [framesLeft, opCondWidth]; omega) ⟨rfl, nofun, rfl⟩
  | negotiateSdOcr =>
    exact fun h => ruleRan_loop hs h inLoop_negotiateLoop (fun hN _ _ => length_framesOf_negotiateLoop hN) rfl
      (by simp only [framesLeft, opCondWidth]; omega) ⟨rfl, nofun, rfl⟩
  | negotiateMmcOcr =>
    exact fun h => ruleRan_loop hs h inLoop_negotiateLoop (fun hN _ _ => length_framesOf_negotiateLoop hN) rfl
      (by simp only [framesLeft, opCondWidth]; omega) ⟨rfl, nofun, rfl⟩
  | getCidSd =>
    exact fun h => ruleRan_required hs ⟨rfl, rfl, rfl⟩ h
      (by decide) (fun _ => by simp [framesLeft]) ⟨rfl, nofun, rfl⟩
  | getCidMmc =>
    exact fun h => ruleRan_required hs ⟨rfl, rfl, rfl⟩ h
      (by decide) (fun _ => by simp [framesLeft]) ⟨rfl, nofun, rfl⟩
  | getRcaSd =>
    exact fun h => ruleRan_rca hs ⟨rfl, rfl, rfl⟩ h rfl
      (.inl rfl) (.inl rfl)
  | setRcaMmc =>
    exact fun h => ruleRan_rca hs ⟨rfl, rfl, rfl⟩ h rfl
      (.inr rfl) (.inr rfl)
  | getCsdSd => exact ruleRan_csd hs (.inl rfl)
  | getCsdMmc => exact ruleRan_csd hs (.inr rfl)

end rules

end Sys2Proof.Proofs

/-! SUPPORT. A whole ACQUIRE, rule by rule: the frames that went out, and what the session holds at each state. -/

namespace Sys2Proof.Proofs

open Sys2Proof.Machine Sys2Proof.Laws

/-! ### The frames of a running acquisition -/

/-- The indices of an ACQUIRE's frames (R250). -/
def acqIndexes : List (BitVec 6) := [0#6, 8#6, 55#6, 41#6, 1#6, 2#6, 3#6, 9#6]

theorem mem_acqIndexes {a : AcqState} {i : BitVec 6} (h : i ∈ ruleIndexes a) : i ∈ acqIndexes := by
  revert h i
  cases a <;> decide

/-- Only the two states with SEND_CSD send its index. -/
theorem ne_csd_of_mem_ruleIndexes {a : AcqState} {i : BitVec 6} (ha : sendsCsd a = false) (h : i ∈ ruleIndexes a) :
    i ≠ 9#6 := by
  revert h i
  cases a <;> revert ha <;> decide

/-- The place of SEND_CSD among the frames sent so far: nowhere yet, and CMD3 has gone out where it comes next; or at
the end of an acquisition, after CMD3 and with the session's RCA (R49 a). -/
def CsdPlaced (t : State) (fs : List Frame) : Prop :=
  ((∀ f ∈ fs, frameIndex f ≠ 9#6) ∧ (sendsCsd t.acqState = true → ∃ f ∈ fs, frameIndex f = 3#6)) ∨
  (t.acqState.terminal = true ∧ ∃ before, fs = before ++ [cmdFrame 9#6 (rcaArg t.session.rca)] ∧
    (∀ f ∈ before, frameIndex f ≠ 9#6) ∧ ∃ f ∈ before, frameIndex f = 3#6)

/-- An acquisition that began in `s` has come to `t`. -/
structure Acquisition (s t : State) (fs : List Frame) : Prop where
  moved : Moved s t fs 0
  index : ∀ f ∈ fs, frameIndex f ∈ acqIndexes
  count : 1 ≤ s.cfg.negMaxTries → fs.length + framesLeft s.cfg t.acqState ≤ framesLeft s.cfg .reset
  began : t.acqState = .reset ∨ fs ≠ []
  csd   : CsdPlaced t fs

section acquisition
variable {s t u : State} {fs gs : List Frame}

theorem CsdPlaced.rule (h : CsdPlaced t fs) (hrun : t.acqState.terminal = false) (k : RuleRan t u gs) :
    CsdPlaced u (fs ++ gs) := by
  rcases h with ⟨hnone, hasked⟩ | ⟨hterm, -⟩
  swap
  · rw [hrun] at hterm
    cases hterm
  cases hcsd : sendsCsd t.acqState with
  | true =>
    obtain ⟨rfl, hrca, hend⟩ := k.csd hcsd
    exact .inr ⟨hend, fs, by rw [hrca], hnone, hasked hcsd⟩
  | false =>
    refine .inl ⟨List.forall_mem_append.mpr ⟨hnone, fun f hf => ne_csd_of_mem_ruleIndexes hcsd (k.index f hf)⟩,
      fun hu => ?_⟩
    obtain ⟨f, hf, hidx⟩ := k.asked hu
    exact ⟨f, List.mem_append_right _ hf, hidx⟩

theorem Acquisition.rule (h : Acquisition s t fs) (hrun : t.acqState.terminal = false) (k : RuleRan t u gs) :
    Acquisition s u (fs ++ gs) where
  moved := h.moved.trans k.moved
  index := List.forall_mem_append.mpr ⟨h.index, fun f hf => mem_acqIndexes (k.index f hf)⟩
  count hN := by
    have hsofar := h.count hN
    have hrule := k.count (h.moved.cfg ▸ hN)
    rw [h.moved.cfg] at hrule
    rw [List.length_append]
    omega
  began := by
    refine .inr fun hnil => ?_
    obtain ⟨hfs, hgs⟩ := List.append_eq_nil_iff.mp hnil
    exact h.began.elim (fun hreset => k.began hreset hgs) fun hne => hne hfs
  csd := h.csd.rule hrun k

theorem Acquisition.step (h : Acquisition s t fs) (hx : acqStep t = .ok u) : ∃ gs, Acquisition s u gs := by
  by_cases hterm : t.acqState.terminal = true
  · exact ⟨fs, acqStep_outside (.inr hterm) hx ▸ h⟩
  · obtain ⟨gs, k⟩ := acqStep_ran hx
    exact ⟨_, h.rule (by simpa using hterm) k⟩

theorem acquisition_start (s : State) (h : s.acqState = .reset) : Acquisition s s [] :=
  ⟨moved_write _ _ _ _ _ _ _ _ _ _ s, nofun, fun _ => by simp [h], .inl h, .inl ⟨nofun, fun hs => by simp [h, sendsCsd] at hs⟩⟩

/-- An acquisition that ran to its end. -/
theorem acquisition_of_acqRun {n : Nat} (hs : s.acqState = .reset) (h : acqRun n s = .ok t) :
    ∃ fs, Acquisition s t fs :=
  acqRun_keeps (P := fun u => ∃ fs, Acquisition s u fs) (fun _ _ ⟨_, ha⟩ hx => ha.step hx) n
    ⟨[], acquisition_start s hs⟩ h

theorem terminal_of_acqRun (h : acqRun acqFuel (acqStart s) = .ok t) : t.acqState = .done ∨ t.acqState = .failed := by
  simpa [AcqState.terminal] using
    acqRun_terminal acqFuel (by simp [acqStart]) (by simp [acqStart, rulesLeft, acqFuel]) h

theorem acqEnd_done (h : s.acqState = .done) : acqEnd s = { s with acqResult := .acquired } := if_pos h

theorem acqEnd_failed (h : s.acqState = .failed) : acqEnd s = { sessionClear s with
    acqResult := if s.sdTimedOut && s.mmcTimedOut then .noCard else .identifyFailed } := if_neg (by simp [h])

/-- The rule of a terminal state and the result (R247, R248, R220). -/
theorem moved_acqEnd (r : Result) (hs : s.acqState = .done ∨ s.acqState = .failed) :
    Moved s { acqEnd s with result := r } [] 0 := by
  rcases hs with hs | hs
  · rw [acqEnd_done hs]
    exact moved_write _ _ _ _ _ _ _ _ _ _ s
  · rw [acqEnd_failed hs]
    exact (moved_sessionClear s).write (moved_write _ _ _ _ _ _ _ _ _ _ _)

/-- A completed ACQUIRE: the acquisition that ran, up to `u`, and its end. -/
theorem acquisition_of_exec (h : exec .acquire s = .next t) :
    ∃ u fs, acqRun acqFuel (acqStart s) = .ok u ∧ (u.acqState = .done ∨ u.acqState = .failed) ∧
      Acquisition (acqStart s) u fs ∧ Moved (acqStart s) t fs 0 ∧
      t = { acqEnd u with result := .acquired (acqEnd u).session.acquired } := by
  obtain ⟨-, u, hrun, rfl⟩ := execAcquire_cases h
  obtain ⟨fs, ha⟩ := acquisition_of_acqRun (s := acqStart s) rfl hrun
  have hterm := terminal_of_acqRun hrun
  exact ⟨u, fs, hrun, hterm, ha, ha.moved.write (moved_acqEnd _ hterm), rfl⟩

/-- Where SEND_CSD stands among the frames of an acquisition that has ended. -/
theorem CsdPlaced.split {before after : List Frame} {f : Frame} (h : CsdPlaced t fs) (hfs : fs = before ++ f :: after)
    (hf : frameIndex f = 9#6) : (∃ g ∈ before, frameIndex g = 3#6) ∧ f = cmdFrame 9#6 (rcaArg t.session.rca) := by
  rcases h with ⟨hnone, -⟩ | ⟨-, before', hfs', hnone, hasked⟩
  · exact absurd hf (hnone f (by simp [hfs]))
  · rw [hfs] at hfs'
    rcases List.eq_nil_or_concat after with rfl | ⟨init, g, rfl⟩
    · obtain ⟨rfl, hlast⟩ := List.append_inj' hfs' rfl
      exact ⟨hasked, (List.cons.inj hlast).1⟩
    · have hsplit : (before ++ f :: init) ++ [g] = before' ++ [cmdFrame 9#6 (rcaArg t.session.rca)] := by
        simpa using hfs'
      exact absurd hf (hnone f (by simp [← (List.append_inj' hsplit rfl).1]))

end acquisition

/-- Settles O39: what every part of an ACQUIRE keeps (`Moved`), which has sent a frame by its end. -/
theorem acquireKeepsItsFrame : Obligations.AcquireKeepsItsFrame := by
  intro s t h
  obtain ⟨u, fs, -, hterm, ha, hm, -⟩ := acquisition_of_exec h
  have hne : fs ≠ [] := ha.began.resolve_left (by rcases hterm with hu | hu <;> simp [hu])
  have hrest : t.clkSel = .ident ∧ t.st = Flags.clear := hm.rest.resolve_right fun hnil => hne hnil.1
  obtain ⟨hcaller, hdesc, hcfg, hport, hrf, hbuf⟩ : t.caller = s.caller ∧ t.desc = s.desc ∧ t.cfg = s.cfg ∧
      t.port = s.port ∧ t.rfState = s.rfState ∧ t.cache.buf = s.cache.buf := by
    simpa [untouched, acqStart] using hm.same
  exact ⟨hcaller, hdesc, hcfg, hport, hbuf, hrf, hm.base rfl, hm.busWide rfl, hrest.2, hrest.1, hm.clkRun⟩

/-- Settles O38: the number of frames by `framesLeft`, the place of SEND_CSD by `CsdPlaced`. -/
theorem acquireSendsBoundedFrames : Obligations.AcquireSendsBoundedFrames := by
  intro s t hwf h
  obtain ⟨u, fs, -, hterm, ha, hm, rfl⟩ := acquisition_of_exec h
  refine ⟨fs, hm.wire, ?_, ha.index, fun before f after hfs hf => ?_⟩
  · have hcount := (Nat.le_add_right _ _).trans (ha.count (cfg_of_wf hwf).1)
    rwa [framesLeft, ← Nat.add_assoc] at hcount
  · obtain ⟨hasked, rfl⟩ := ha.csd.split hfs hf
    refine ⟨hasked, fun hacq => ?_⟩
    rcases hterm with hu | hu
    · rw [acqEnd_done hu]
      rfl
    · rw [acqEnd_failed hu] at hacq
      cases hacq

/-! ### The session at each state -/

/-- A response that was taken well passed its checks and is in `RB` (R111, R192). -/
theorem takeRsp_accepted {i : BitVec 6} {fmt : RspFormat} {busy : Bool} {ans : Answer} {s t : State}
    (h : takeRsp i fmt busy ans s = (none, t)) :
    checkRsp i fmt ans.rsp = none ∧ ∃ pad, t.rb = assembleRb pad ans.rsp := by
  unfold takeRsp at h
  split at h
  · cases h
  next hcheck =>
  unfold busyWait at h
  split at h
  · cases h
  · cases h
    exact ⟨hcheck, _, rfl⟩

theorem eq_none_of_statusOf {k : Option FailKind} (h : statusOf k = .ok) : k = none := by
  rcases k with _ | k
  · rfl
  · cases k <;> cases h

/-- A register that a command with a 136-bit response stored has a good CRC (R94, R110). -/
theorem regCrcGood_of_executeCmd {c : Cmd} {a : Word} {s t : State} (hf : c.descriptor.rsp = .r2)
    (hc : c.descriptor.acmd = false) (hd : c.descriptor.data = false) (h : executeCmd c a s = .ok (.ok, t)) :
    regCrcGood (val128 t.rb) = true := by
  rw [executeCmd, execute_plain (write_eq_false c) hd hc] at h
  split at h
  · cases h
  next k u hx =>
  have hfinish := Except.ok.inj h
  obtain rfl : k = none := eq_none_of_statusOf (congrArg Prod.fst hfinish)
  rw [finish_ok _ _ (by simp [hf])] at hfinish
  have hrb : t.rb = u.rb := (congrArg (fun p => p.2.rb) hfinish).symm
  rw [hf] at hx
  obtain ⟨hnone, -⟩ | ⟨-, -, hk, -⟩ | ⟨-, hne, hfit, htake⟩ := exchange_cases hx
  · cases hnone
  · cases hk
  obtain ⟨hcheck, pad, hpad⟩ := takeRsp_accepted htake.symm
  cases hrsp : (nextAnswer (clocked c a s)).rsp with
  | noResponse => exact absurd hrsp hne
  | rsp48 => simp [hrsp, Rsp.fits, RspFormat.is48] at hfit
  | rsp136 content =>
    rw [hrsp, checkRsp_register] at hcheck
    rw [hrb, hpad, hrsp, val128_assembleRb]
    by_contra hbad
    simp [hbad] at hcheck

/-- No card is acquired and none is known to be an SD card. -/
def Unidentified (x : Session) : Prop := x.acquired = false ∧ x.sd = false

/-- What the session of an acquired card holds (R231, R236, R244, R246). -/
structure IdentifiedCard (x : Session) : Prop where
  acquired   : x.acquired = true
  blockLen   : x.blockLen.toNat = csdBlockLen x.csd
  blockCount : x.blockCount.toNat = csdBlockCount x.csd
  deviceSize : x.deviceSize.toNat = csdDeviceSize x.csd
  csd        : regCrcGood x.csd = true
  cid        : regCrcGood x.cid = true
  rca        : x.sd = false → x.rca = 1#16

/-- What the session holds at each state of an acquisition. -/
def SessionAt : AcqState → Session → Prop
  | .getRcaSd, x | .setRcaMmc, x | .getCsdSd, x => Unidentified x ∧ regCrcGood x.cid = true
  | .getCsdMmc, x => Unidentified x ∧ regCrcGood x.cid = true ∧ x.rca = 1#16
  | .done, x => IdentifiedCard x
  | _, x => Unidentified x

section session
variable {s t : State} {next : AcqState} {c : Cmd} {a : Word} {x : State → Session} {b : Branch}

theorem sessionAt_afterLoop {r : Res Bool} (hr : ∀ {ok u}, r = .ok (ok, u) → InLoop b s u)
    (hs : Unidentified s.session) (hnext : ∀ y, Unidentified y → SessionAt next y) (h : afterLoop next r = .ok t) :
    SessionAt t.acqState t.session := by
  obtain ⟨ok, u, hx, rfl⟩ := afterLoop_cases h
  obtain ⟨ms, hu⟩ := (hr hx).session
  have hu : Unidentified u.session := hu ▸ hs
  cases ok
  · exact hu
  · exact hnext _ hu

/-- A required command that fails leaves the session, one that succeeds has it written. -/
theorem sessionAt_required (h : required c a (fun u => { u with session := x u, acqState := next }) s = .ok t)
    (hs : Unidentified s.session)
    (hx : ∀ {u}, executeCmd c a s = .ok (.ok, u) → u.session = s.session → SessionAt next (x u)) :
    SessionAt t.acqState t.session := by
  obtain ⟨st, u, hu, hend⟩ := required_cases h
  have hsession := (executed_of_executeCmd hu).frame.session
  obtain ⟨rfl, rfl⟩ | ⟨-, rfl⟩ := hend
  · exact hx hu hsession
  · exact hsession ▸ hs

theorem sessionAt_getCid (h : acqGetCid next s = .ok t) (hs : Unidentified s.session)
    (hnext : ∀ y, Unidentified y → regCrcGood y.cid = true → SessionAt next y) : SessionAt t.acqState t.session :=
  sessionAt_required h hs fun hu hsession => hnext _ (hsession ▸ hs) (regCrcGood_of_executeCmd rfl rfl rfl hu)

/-- The session that `identified` leaves is that of an acquired card. -/
theorem identifiedCard_identified {sd : Bool} {u : State} (hcsd : regCrcGood (val128 u.rb) = true)
    (hcid : regCrcGood u.session.cid = true) (hrca : sd = false → u.session.rca = 1#16) :
    IdentifiedCard (identified sd u).session := by
  obtain ⟨hlen, hcount, hsize⟩ := finishParse_capacity { u with session := { u.session with csd := val128 u.rb } }
  refine ⟨rfl, hlen, hcount, hsize, hcsd, hcid, fun hsd => hrca ?_⟩
  exact (Bool.or_eq_false_iff.mp hsd).1

theorem sessionAt_getCsd {sd : Bool} (h : acqGetCsd sd s = .ok t) (hs : Unidentified s.session)
    (hcid : regCrcGood s.session.cid = true) (hrca : sd = false → s.session.rca = 1#16) :
    SessionAt t.acqState t.session := by
  obtain ⟨st, u, hx, hend⟩ := acqGetCsd_executed h
  have hsession := (executed_of_executeCmd hx).frame.session
  obtain ⟨rfl, rfl⟩ | ⟨-, rfl⟩ := hend
  · exact identifiedCard_identified (regCrcGood_of_executeCmd rfl rfl rfl hx) (hsession ▸ hcid) (hsession ▸ hrca)
  · exact hsession ▸ hs

/-- Every rule leaves the session as its next state has it. -/
theorem sessionAt_acqStep (hs : SessionAt s.acqState s.session) (h : acqStep s = .ok t) :
    SessionAt t.acqState t.session := by
  unfold acqStep at h
  revert h hs
  cases hstate : s.acqState with
  | idle | done | failed => exact fun hs h => by cases h; rw [hstate]; exact hs
  | reset =>
    intro hs h
    obtain ⟨u, fs, -, f, -, rfl⟩ := acqReset_cases h
    exact f.session ▸ hs
  | trySdOpCond =>
    intro hs h
    obtain ⟨st, u, hx, ⟨-, rfl⟩ | ⟨-, rfl⟩ | ⟨-, -, rfl⟩⟩ := acqTrySd_cases h
    · exact (executed_of_opCond hx).frame.session ▸ hs
    · exact ⟨rfl, rfl⟩
    · exact (executed_of_opCond hx).frame.session ▸ hs
  | tryMmcOpCond =>
    intro hs h
    obtain ⟨st, u, hx, ⟨-, rfl⟩ | ⟨-, rfl⟩ | ⟨-, -, rfl⟩⟩ := acqTryMmc_cases h <;>
      exact (executed_of_opCond hx).frame.session ▸ hs
  | checkSdOcr | checkMmcOcr =>
    intro hs h
    cases h
    show SessionAt (if ocrReady s.ocr then _ else _) s.session
    split <;> exact hs
  | pollSdOcr | pollMmcOcr => exact fun hs => sessionAt_afterLoop inLoop_pollLoop hs fun _ => id
  | negotiateSdOcr | negotiateMmcOcr => exact fun hs => sessionAt_afterLoop inLoop_negotiateLoop hs fun _ => id
  | getCidSd | getCidMmc => exact fun hs h => sessionAt_getCid h hs fun _ hy hcid => ⟨hy, hcid⟩
  | getRcaSd => exact fun ⟨hs, hcid⟩ h => sessionAt_required h hs fun _ hu => ⟨hu ▸ hs, hu ▸ hcid⟩
  | setRcaMmc => exact fun ⟨hs, hcid⟩ h => sessionAt_required h hs fun _ hu => ⟨hu ▸ hs, hu ▸ hcid, rfl⟩
  | getCsdSd => exact fun ⟨hs, hcid⟩ h => sessionAt_getCsd h hs hcid nofun
  | getCsdMmc => exact fun ⟨hs, hcid, hrca⟩ h => sessionAt_getCsd h hs hcid fun _ => hrca

end session

/-- Settles O36: the session at the terminal states (`SessionAt`), which the end of ACQUIRE keeps or clears. -/
theorem acquireEndsAcquiredOrCleared : Obligations.AcquireEndsAcquiredOrCleared := by
  intro s t h
  obtain ⟨u, fs, hrun, hterm, -, -, rfl⟩ := acquisition_of_exec h
  have hstart : SessionAt .reset Session.zero := ⟨rfl, rfl⟩
  have hu : SessionAt u.acqState u.session :=
    acqRun_keeps (P := fun v => SessionAt v.acqState v.session) (fun _ _ => sessionAt_acqStep) _ hstart hrun
  rcases hterm with hdone | hfailed
  · rw [hdone] at hu
    obtain ⟨hacq, hlen, hcount, hsize, hcsd, hcid, hrca⟩ := hu
    rw [acqEnd_done hdone]
    exact .inl ⟨hdone, rfl, congrArg Result.acquired hacq, hacq, hlen, hcount, hsize, hcsd, hcid, hrca⟩
  · rw [acqEnd_failed hfailed]
    exact .inr ⟨hfailed, if_congr Bool.and_eq_true_iff rfl rfl, rfl, rfl⟩

end Sys2Proof.Proofs

/-! SUPPORT. The card falling silent: an operation of the acquisition meets the card through its answers in order, so it
does the same up to the answer from which on there are none, and it ends when there are none at all. -/

namespace Sys2Proof.Proofs

open Sys2Proof.Machine Sys2Proof.Laws

/-! ### Silence from an answer on -/

/-- The card is silent from its `k`-th answer on. -/
def cut (k : Nat) (s : State) : State := { s with card := s.card.take k }

/-- An operation of the acquisition, begun in `s`: if it completes, it does so the same with a card silent from any
answer after those it took on; if it is refused, then for the length of an answer, and with the card silent from that
answer on it completes, having sent in its place a frame that expects another length; with a silent card it completes. -/
structure Cuts {α : Type} (op : State → Res α) (s : State) : Prop where
  runs : ∀ {x t}, op s = .ok (x, t) → ∃ fs, framesOf t.trace = framesOf s.trace ++ fs ∧
    t.card = s.card.drop fs.length ∧ ∀ k, fs.length ≤ k → op (cut k s) = .ok (x, cut (k - fs.length) t)
  stops : ∀ {r}, op s = .error r → r = .answerLength ∧ ∃ k x t fs f, op (cut k s) = .ok (x, t) ∧
    framesOf t.trace = framesOf s.trace ++ fs ∧ t.card = [] ∧ fs[k]? = some f ∧ misfit f (answerAt s k).rsp = true
  silent : s.card = [] → ∃ x t, op s = .ok (x, t)

/-- One operation and then another. -/
def andThen {α β : Type} (op : State → Res α) (next : α → State → Res β) (s : State) : Res β :=
  match op s with
  | .error r => .error r
  | .ok (x, t) => next x t

section cuts
variable {α β : Type} {op op' : State → Res α} {next : α → State → Res β} {s : State}

theorem andThen_ok {x : α} {t : State} (h : op s = .ok (x, t)) : andThen op next s = next x t := by
  simp [andThen, h]

theorem andThen_error {r : Refusal} (h : op s = .error r) : andThen op next s = .error r := by
  simp [andThen, h]

/-- Two operations that agree in `s`, whatever answers there are. -/
theorem Cuts.congr (h : op s = op' s) (hcut : ∀ k, op (cut k s) = op' (cut k s)) (k : Cuts op' s) : Cuts op s where
  runs hx := by
    simp only [hcut]
    exact k.runs (h ▸ hx)
  stops hx := by
    simp only [hcut]
    exact k.stops (h ▸ hx)
  silent hs := h ▸ k.silent hs

theorem Cuts.andThen (h : ∀ s, Cuts op s) (hk : ∀ x s, Cuts (next x) s) (s : State) :
    Cuts (andThen op next) s where
  runs {y u} hx := by
    cases hop : op s with
    | error r => cases (andThen_error hop).symm.trans hx
    | ok p =>
      obtain ⟨x, t⟩ := p
      rw [andThen_ok hop] at hx
      obtain ⟨fs, hwire, hcard, hcut⟩ := (h s).runs hop
      obtain ⟨gs, hwire', hcard', hcut'⟩ := (hk x t).runs hx
      refine ⟨fs ++ gs, by rw [hwire', hwire, List.append_assoc],
        by rw [hcard', hcard, List.drop_drop, List.length_append], fun k hle => ?_⟩
      rw [List.length_append] at hle ⊢
      rw [andThen_ok (hcut k (by omega)), hcut' _ (by omega), Nat.sub_sub]
  stops {r} hx := by
    cases hop : op s with
    | error r' =>
      cases (andThen_error hop).symm.trans hx
      obtain ⟨hr, k, x, t, fs, f, hrun, hwire, hcard, hf, hmis⟩ := (h s).stops hop
      obtain ⟨y, u, hy⟩ := (hk x t).silent hcard
      obtain ⟨gs, hwire', hcard', -⟩ := (hk x t).runs hy
      exact ⟨hr, k, y, u, fs ++ gs, f, (andThen_ok hrun).trans hy, by rw [hwire', hwire, List.append_assoc],
        by rw [hcard', hcard, List.drop_nil], by rw [List.getElem?_append_left (List.getElem?_eq_some_iff.mp hf).1, hf],
        hmis⟩
    | ok p =>
      obtain ⟨x, t⟩ := p
      rw [andThen_ok hop] at hx
      obtain ⟨fs, hwire, hcard, hcut⟩ := (h s).runs hop
      obtain ⟨hr, k, y, u, gs, f, hrun, hwire', hcard', hf, hmis⟩ := (hk x t).stops hx
      have hfirst : op (cut (fs.length + k) s) = .ok (x, cut k t) := by
        rw [hcut _ (Nat.le_add_right _ _), Nat.add_sub_cancel_left]
      refine ⟨hr, fs.length + k, y, u, fs ++ gs, f, (andThen_ok hfirst).trans hrun,
        by rw [hwire', ← List.append_assoc, ← hwire], hcard',
        by rw [List.getElem?_append_right (Nat.le_add_right _ _), Nat.add_sub_cancel_left, hf], ?_⟩
      rwa [answerAt, ← List.drop_drop, ← hcard]
  silent hs := by
    obtain ⟨x, t, hx⟩ := (h s).silent hs
    obtain ⟨fs, -, hcard, -⟩ := (h s).runs hx
    obtain ⟨y, u, hy⟩ := (hk x t).silent (by rw [hcard, hs, List.drop_nil])
    exact ⟨y, u, (andThen_ok hx).trans hy⟩

/-- A step inside the block, which neither asks the card nor looks at its answers. -/
structure Inside (g : State → State) : Prop where
  cut  : ∀ k s, g (cut k s) = cut k (g s)
  wire : ∀ s, framesOf (g s).trace = framesOf s.trace
  card : ∀ s, (g s).card = s.card

theorem Inside.cuts {g : State → State} (h : Inside g) (x : State → α) (hx : ∀ k s, x (Proofs.cut k s) = x s)
    (s : State) : Cuts (fun s => .ok (x s, g s)) s where
  runs hr := by
    cases hr
    exact ⟨[], by simp [h.wire], by simp [h.card], fun k _ => by simp [hx, h.cut]⟩
  stops hr := by cases hr
  silent _ := ⟨_, _, rfl⟩

/-- Such a step before an operation. -/
theorem Inside.andThen {g : State → State} (h : Inside g) (hop : ∀ s, Cuts op s) (s : State) :
    Cuts (fun s => op (g s)) s :=
  Cuts.andThen (h.cuts (fun _ => ()) fun _ _ => rfl) (fun _ => hop) s

/-- Nothing more is done. -/
theorem cuts_end (x : α) (s : State) : Cuts (fun s => .ok (x, s)) s :=
  Inside.cuts (g := id) ⟨fun _ _ => rfl, fun _ => rfl, fun _ => rfl⟩ (fun _ => x) (fun _ _ => rfl) s

/-- A choice that does not depend on the answers. -/
theorem Cuts.ite {p : State → Prop} [DecidablePred p] (hp : ∀ k s, p (cut k s) ↔ p s) (h : Cuts op s)
    (h' : Cuts op' s) : Cuts (fun s => if p s then op s else op' s) s := by
  by_cases hs : p s
  · exact .congr (if_pos hs) (fun k => if_pos ((hp k s).mpr hs)) h
  · exact .congr (if_neg hs) (fun k => if_neg (mt (hp k s).mp hs)) h'

end cuts

/-! ### The transport with fewer answers -/

section transport
variable {i : BitVec 6} {fmt : RspFormat} {busy : Bool} {s : State} {c : Cmd}

theorem nextAnswer_cut (k : Nat) (s : State) : nextAnswer (cut (k + 1) s) = nextAnswer s := by
  unfold nextAnswer cut
  cases s.card <;> rfl

theorem sendFrame_cut (a : Word) (k : Nat) (s : State) : sendFrame i a (cut (k + 1) s) = cut k (sendFrame i a s) := by
  have htail : (s.card.take (k + 1)).tail = s.card.tail.take k := by
    cases s.card <;> simp
  exact congrArg (fun l => { sendFrame i a s with card := l }) htail

theorem takeRsp_cut (ans : Answer) (k : Nat) (s : State) :
    takeRsp i fmt busy ans (cut k s) = ((takeRsp i fmt busy ans s).1, cut k (takeRsp i fmt busy ans s).2) := by
  unfold takeRsp busyWait
  split
  · rfl
  · split <;> rfl

/-- An exchange whose answer is not cut off goes the same way. -/
theorem exchange_cut {a : Word} {k : Nat} {x : Option FailKind} {t : State}
    (h : exchange i a fmt busy s = .ok (x, t)) : exchange i a fmt busy (cut (k + 1) s) = .ok (x, cut k t) := by
  have hans := nextAnswer_cut k s
  rcases exchange_cases h with ⟨hfmt, rfl, rfl⟩ | ⟨hfmt, hr, rfl, rfl⟩ | ⟨hfmt, hr, hfit, htake⟩
  · rw [exchange_none hfmt, sendFrame_cut]
    rfl
  · rw [exchange_silent hfmt (hans ▸ hr), sendFrame_cut]
    rfl
  · rw [exchange_answer hfmt (hans ▸ hr) (hans ▸ hfit), sendFrame_cut, hans]
    exact (congrArg Except.ok (takeRsp_cut _ k _)).trans (by rw [← htake])

/-- An exchange is refused for an answer that its frame's command does not expect, if the index tells the format. -/
theorem cuts_exchange {a : Word}
    (hi : fmt ≠ .none → ∀ rsp : Rsp, rsp.fits fmt = false → misfit (cmdFrame i a) rsp = true) (s : State) :
    Cuts (exchange i a fmt busy) s where
  runs h := by
    obtain ⟨hsent, -⟩ := sent_exchange h
    refine ⟨_, hsent.wire, hsent.card, fun k hk => ?_⟩
    obtain ⟨j, rfl⟩ : ∃ j, k = j + 1 := ⟨k - 1, by simp at hk; omega⟩
    exact exchange_cut h
  stops {r} h := by
    refine ⟨exchange_error h, ?_⟩
    unfold exchange at h
    dsimp only at h
    split_ifs at h with hfmt hr hfit
    have hx := exchange_silent (i := i) (a := a) (b := busy) (s := cut 0 s) hfmt rfl
    obtain ⟨hsent, -⟩ := sent_exchange hx
    have hmis : (nextAnswer s).rsp.fits fmt = false := by simpa using hfit
    exact ⟨0, _, _, _, _, hx, hsent.wire, by simp [cut], rfl, hi hfmt _ hmis⟩
  silent hs := by
    by_cases hfmt : fmt = .none
    · exact ⟨_, _, exchange_none hfmt⟩
    · exact ⟨_, _, exchange_silent hfmt (by simp [nextAnswer, hs])⟩

theorem selectClock_cut (ls : Bool) (k : Nat) (s : State) : selectClock ls (cut k s) = cut k (selectClock ls s) := by
  by_cases h : s.clkSel = clockOf ls
  · have hcut : (cut k s).clkSel = clockOf ls := h
    rw [selectClock, selectClock, if_pos h, if_pos hcut]
  · have hcut : (cut k s).clkSel ≠ clockOf ls := h
    rw [selectClock, selectClock, if_neg h, if_neg hcut]
    rfl

theorem finish_cut (d : Descriptor) (x : Option FailKind) (k : Nat) (s : State) :
    finish d x (cut k s) = ((finish d x s).1, cut k (finish d x s).2) := by
  unfold finish
  dsimp only
  split <;> split <;> rfl

theorem cuts_finish (d : Descriptor) (x : Option FailKind) (s : State) : Cuts (fun s => .ok (finish d x s)) s := by
  have hinside : Inside fun s => (finish d x s).2 := by
    refine ⟨fun k s => congrArg Prod.snd (finish_cut d x k s), fun s => ?_, fun s => ?_⟩ <;>
      obtain ⟨-, -, -, -, -, hwire, hcard, -⟩ := finish_spec d x s
    · exact hwire
    · exact hcard
  exact hinside.cuts (fun _ => statusOf x) (fun _ _ => rfl) s

/-- The commands of the acquisition (R221 to R246). -/
def AcqRow (c : Cmd) : Prop :=
  c ∈ [Cmd.goIdleState, .sendIfCond, .appCmd, .sdSendOpCond, .sendOpCond, .allSendCid, .sendRelativeAddr, .setRelativeAddr,
    .sendCsd]

/-- They have no data phase, and their index tells the length of their response (R101, R102). -/
theorem acqRow_telling (hc : AcqRow c) : c.descriptor.data = false ∧
    (c.descriptor.rsp ≠ .none → ∀ (a : Word) (rsp : Rsp), rsp.fits c.descriptor.rsp = false →
      misfit (cmdFrame c.descriptor.index a) rsp = true) := by
  have telling (hfmt : if c.descriptor.rsp = .r2 then c.descriptor.index = 2#6 ∨ c.descriptor.index = 9#6
      else c.descriptor.rsp.is48 = true ∧ c.descriptor.index ≠ 0#6 ∧ c.descriptor.index ≠ 2#6 ∧
        c.descriptor.index ≠ 9#6) (a : Word) (rsp : Rsp) (h : rsp.fits c.descriptor.rsp = false) :
      misfit (cmdFrame c.descriptor.index a) rsp = true := by
    cases rsp <;> split_ifs at hfmt with hr2 <;> simp_all [misfit, Rsp.fits]
  simp only [AcqRow, List.mem_cons, List.not_mem_nil, or_false] at hc
  rcases hc with rfl | rfl | rfl | rfl | rfl | rfl | rfl | rfl | rfl
  case inl => exact ⟨rfl, fun h => absurd rfl h⟩
  all_goals exact ⟨rfl, fun _ => telling (by decide)⟩

/-- What follows step 2 of a command without a data phase (R193 to R201). -/
def afterPrefix (c : Cmd) (a : Word) : Option FailKind → State → Res Status
  | some e => fun t => .ok (finish c.descriptor (some e) t)
  | none => andThen (exchange c.descriptor.index a c.descriptor.rsp c.descriptor.busy) fun x t =>
      .ok (finish c.descriptor x t)

theorem mainPhase_eq_andThen (hd : c.descriptor.data = false) (a : Word) (s : State) :
    mainPhase c.descriptor a s = afterPrefix c a none s := by
  cases hx : exchange c.descriptor.index a c.descriptor.rsp c.descriptor.busy s with
  | error r => exact (mainPhase_refused hx).trans (andThen_error hx).symm
  | ok p =>
    rw [afterPrefix, andThen_ok hx]
    exact mainPhase_done hx fun _ => hd

theorem executeCmd_eq_andThen (hd : c.descriptor.data = false) (a : Word) (s : State) :
    executeCmd c a s = andThen (prefixPhase c.descriptor.acmd) (afterPrefix c a) (clocked c a s) := by
  cases hp : prefixPhase c.descriptor.acmd (clocked c a s) with
  | error r => simp [executeCmd, execute, write_eq_false, hd, hp, andThen]
  | ok p =>
    obtain ⟨x, t⟩ := p
    rw [andThen_ok hp]
    cases x with
    | some e => simp [executeCmd, execute, write_eq_false, hd, hp, afterPrefix]
    | none => simp [executeCmd, execute, write_eq_false, hd, hp, mainPhase_eq_andThen]

theorem cuts_prefixPhase (p : Bool) (s : State) : Cuts (prefixPhase p) s := by
  cases p with
  | false => exact cuts_end none s
  | true =>
    have htell := (acqRow_telling (c := .appCmd) (by simp [AcqRow])).2
    have heq (s' : State) (hs : s'.session = s.session) : prefixPhase true s' =
        exchange Cmd.appCmd.descriptor.index (rcaArg s.session.rca) .r1 false s' := by
      rw [prefixPhase, if_pos rfl, hs]
    exact .congr (heq s rfl) (fun k => heq (cut k s) rfl) (cuts_exchange (fun hfmt => htell hfmt _) s)

theorem clocked_cut (c : Cmd) (a : Word) (k : Nat) (s : State) : clocked c a (cut k s) = cut k (clocked c a s) :=
  selectClock_cut c.descriptor.ls k { s with cd := ⟨c.descriptor, a⟩ }

/-- A command of the acquisition. -/
theorem cuts_executeCmd (hc : AcqRow c) (a : Word) (s : State) : Cuts (executeCmd c a) s := by
  obtain ⟨hd, htell⟩ := acqRow_telling hc
  have hclock : Inside (clocked c a) :=
    ⟨clocked_cut c a, fun s => selectClock_frames c.descriptor.ls { s with cd := ⟨c.descriptor, a⟩ },
      fun s => selectClock_card c.descriptor.ls { s with cd := ⟨c.descriptor, a⟩ }⟩
  have hafter (x : Option FailKind) (s : State) : Cuts (afterPrefix c a x) s := by
    cases x with
    | some e => exact cuts_finish _ _ s
    | none => exact Cuts.andThen (cuts_exchange fun hfmt => htell hfmt a) (cuts_finish _) s
  exact .congr (executeCmd_eq_andThen hd a s) (fun k => executeCmd_eq_andThen hd a _)
    (hclock.andThen (fun s => Cuts.andThen (cuts_prefixPhase _) hafter s) s)

end transport

/-! ### The acquisition with fewer answers -/

section acquisition
variable {b : Branch} {c : Cmd} {a : Word} {next : AcqState} {s : State}

theorem cuts_opCond (b : Branch) (a : Word) (s : State) : Cuts (opCond b a) s :=
  .congr (opCond_eq_executeCmd b a s) (fun k => opCond_eq_executeCmd b a (cut k s))
    (cuts_executeCmd (by cases b <;> simp [AcqRow, opCondCmd]) a s)

theorem inside_delayMs (n : Nat) : Inside (delayMs n) := ⟨fun _ _ => rfl, fun _ => by simp, fun _ => rfl⟩

/-- What a try of the poll loop does with the status of its command (R227). -/
def pollLook (st : Status) : State → Res TryEnd :=
  if st = .ok then fun t =>
    .ok (if ocrReady (decodeOcr t.rb) then .success else .again, { t with tries := t.tries + 1, ocr := decodeOcr t.rb })
  else fun t => .ok (.again, { t with tries := t.tries + 1 })

theorem cuts_pollLook (st : Status) (s : State) : Cuts (pollLook st) s := by
  unfold pollLook
  split
  · exact Inside.cuts (g := fun t => { t with tries := t.tries + 1, ocr := decodeOcr t.rb })
      ⟨fun _ _ => rfl, fun _ => rfl, fun _ => rfl⟩ _ (fun _ _ => rfl) s
  · exact Inside.cuts (g := fun t => { t with tries := t.tries + 1 })
      ⟨fun _ _ => rfl, fun _ => rfl, fun _ => rfl⟩ (fun _ => TryEnd.again) (fun _ _ => rfl) s

theorem pollTry_eq_andThen (b : Branch) (s : State) :
    pollTry b s = andThen (opCond b 0) pollLook (delayMs Config.pollSpacingMs s) := by
  cases hx : opCond b 0 (delayMs Config.pollSpacingMs s) with
  | error r => rw [andThen_error hx, pollTry, hx]
  | ok p =>
    rw [andThen_ok hx, pollTry, hx, pollLook]
    by_cases hst : p.1 = .ok <;> simp [hst]

theorem cuts_pollTry (b : Branch) (s : State) : Cuts (pollTry b) s :=
  .congr (pollTry_eq_andThen b s) (fun k => pollTry_eq_andThen b (cut k s))
    ((inside_delayMs _).andThen (Cuts.andThen (cuts_opCond b 0) cuts_pollLook) s)

/-- What the poll loop does after a try (R227). -/
def pollNext (b : Branch) (n : Nat) : TryEnd → State → Res Bool
  | .again => pollTurns b n
  | .success => fun t => .ok (true, t)
  | .failure => fun t => .ok (false, t)

theorem pollTurns_eq_andThen (b : Branch) (n : Nat) (s : State) :
    pollTurns b (n + 1) s = andThen (pollTry b) (pollNext b n) s := by
  rw [pollTurns, andThen]
  split <;> simp_all [pollNext]

theorem cuts_pollTurns (b : Branch) : ∀ (n : Nat) (s : State), Cuts (pollTurns b n) s
  | 0, s => cuts_end false s
  | n + 1, s => by
    have hnext : ∀ e s, Cuts (pollNext b n e) s
      | .again => cuts_pollTurns b n
      | .success => cuts_end true
      | .failure => cuts_end false
    exact .congr (pollTurns_eq_andThen b n s) (fun k => pollTurns_eq_andThen b n (cut k s))
      (Cuts.andThen (cuts_pollTry b) hnext s)

theorem cuts_pollLoop (b : Branch) (s : State) : Cuts (pollLoop b) s :=
  Inside.andThen (g := fun s => { s with tries := 0 }) ⟨fun _ _ => rfl, fun _ => rfl, fun _ => rfl⟩
    (cuts_pollTurns b Config.pollTries) s

/-- What a try of the negotiation does with the status of its command (R228). -/
def negLook (st : Status) : State → Res TryEnd :=
  if st = .ok then fun t =>
    if ocrReady (decodeOcr t.rb) then
      .ok (.success, { t with tries := t.tries + 1, ocr := decodeOcr t.rb,
                              session := { t.session with acquireTimeMs := negElapsed t } })
    else .ok (if negCeiling { t with tries := t.tries + 1 } then .failure else .again,
      { t with tries := t.tries + 1, ocr := decodeOcr t.rb })
  else fun t => .ok (if negCeiling { t with tries := t.tries + 1 } then .failure else .again,
    { t with tries := t.tries + 1 })

theorem cuts_negLook (st : Status) (s : State) : Cuts (negLook st) s := by
  unfold negLook
  split
  · refine Cuts.ite (p := fun t => ocrReady (decodeOcr t.rb) = true) (fun _ _ => Iff.rfl) ?_ ?_
    · exact Inside.cuts (g := fun t => { t with tries := t.tries + 1, ocr := decodeOcr t.rb,
                                                session := { t.session with acquireTimeMs := negElapsed t } })
        ⟨fun _ _ => rfl, fun _ => rfl, fun _ => rfl⟩ (fun _ => TryEnd.success) (fun _ _ => rfl) s
    · exact Inside.cuts (g := fun t => { t with tries := t.tries + 1, ocr := decodeOcr t.rb })
        ⟨fun _ _ => rfl, fun _ => rfl, fun _ => rfl⟩ _ (fun _ _ => rfl) s
  · exact Inside.cuts (g := fun t => { t with tries := t.tries + 1 })
      ⟨fun _ _ => rfl, fun _ => rfl, fun _ => rfl⟩ _ (fun _ _ => rfl) s

theorem negTry_eq_andThen (b : Branch) (s : State) : negTry b s = andThen (opCond b s.negArg) negLook s := by
  cases hx : opCond b s.negArg s with
  | error r => rw [andThen_error hx, negTry, hx]
  | ok p =>
    rw [andThen_ok hx, negTry, hx, negLook]
    by_cases hst : p.1 = .ok <;> simp [hst]
    all_goals rfl

theorem cuts_negTry (b : Branch) (s : State) : Cuts (negTry b) s :=
  .congr (negTry_eq_andThen b s) (fun k => negTry_eq_andThen b (cut k s))
    (Cuts.andThen (cuts_opCond b s.negArg) cuts_negLook s)

/-- What the negotiation does after a try (R228, R229). -/
def negNext (b : Branch) (n : Nat) : TryEnd → State → Res Bool
  | .again => negRest b n
  | .success => fun t => .ok (true, t)
  | .failure => fun t => .ok (false, t)

theorem negTurns_eq_andThen (b : Branch) (n : Nat) (s : State) :
    negTurns b (n + 1) s = andThen (negTry b) (negNext b n) s := by
  rw [negTurns, andThen]
  split <;> simp_all [negNext, negRest]

theorem cuts_negTurns (b : Branch) : ∀ (n : Nat) (s : State), Cuts (negTurns b n) s
  | 0, s => cuts_end false s
  | n + 1, s => by
    have hrest (s : State) : Cuts (negRest b n) s := by
      refine Cuts.ite
        (p := fun s => (s.cfg.negRecheck && negCeiling (delayMs Config.negDelayMs s)) = true) (fun _ _ => Iff.rfl) ?_ ?_
      · exact (inside_delayMs Config.negDelayMs).cuts (fun _ => false) (fun _ _ => rfl) s
      · exact (inside_delayMs Config.negDelayMs).andThen (cuts_negTurns b n) s
    have hnext : ∀ e s, Cuts (negNext b n e) s
      | .again => hrest
      | .success => cuts_end true
      | .failure => cuts_end false
    exact .congr (negTurns_eq_andThen b n s) (fun k => negTurns_eq_andThen b n (cut k s))
      (Cuts.andThen (cuts_negTry b) hnext s)

theorem cuts_negotiateLoop (b : Branch) (s : State) : Cuts (negotiateLoop b) s :=
  .congr (op' := fun s' => negTurns b (max 1 s.cfg.negMaxTries) (negEntered s')) rfl (fun _ => rfl)
    (Inside.andThen (g := negEntered) ⟨fun _ _ => rfl, fun _ => rfl, fun _ => rfl⟩ (cuts_negTurns b _) s)

/-! The rules. -/

/-- A rule, or several, as an operation. -/
def asOp (rule : State → Except Refusal State) (s : State) : Res Unit :=
  match rule s with
  | .error r => .error r
  | .ok t => .ok ((), t)

theorem asOp_ok_iff {rule : State → Except Refusal State} {t : State} :
    asOp rule s = .ok ((), t) ↔ rule s = .ok t := by
  unfold asOp
  split <;> simp_all

theorem asOp_error_iff {rule : State → Except Refusal State} {r : Refusal} :
    asOp rule s = .error r ↔ rule s = .error r := by
  unfold asOp
  split <;> simp_all

/-- A rule that is an operation and then a write by what it answered. -/
theorem cuts_asOp {α : Type} {op : State → Res α} {rule : State → Except Refusal State} {g : α → State → State}
    (hop : ∀ s, Cuts op s) (hg : ∀ x, Inside (g x))
    (heq : ∀ k, rule (cut k s) = (op (cut k s)).map fun p => g p.1 p.2)
    (heq' : rule s = (op s).map fun p => g p.1 p.2) : Cuts (asOp rule) s := by
  have hop' (s' : State) (h : rule s' = (op s').map fun p => g p.1 p.2) :
      asOp rule s' = andThen op (fun x t => .ok ((), g x t)) s' := by
    rw [asOp, h, andThen]
    cases op s' <;> rfl
  exact .congr (hop' s heq') (fun k => hop' _ (heq k))
    (Cuts.andThen hop (fun x => (hg x).cuts (fun _ => ()) fun _ _ => rfl) s)

theorem cuts_afterLoop {loop : State → Res Bool} (h : ∀ s, Cuts loop s) (s : State) :
    Cuts (asOp fun s => afterLoop next (loop s)) s := by
  have heq (s : State) : afterLoop next (loop s) =
      (loop s).map fun p => { p.2 with acqState := if p.1 then next else .failed } := by
    cases loop s <;> rfl
  exact cuts_asOp (g := fun ok t => { t with acqState := if ok then next else .failed }) h
    (fun _ => ⟨fun _ _ => rfl, fun _ => rfl, fun _ => rfl⟩) (fun k => heq (cut k s)) (heq s)

theorem cuts_required (hc : AcqRow c) {k : State → State} (hk : Inside k) (s : State) :
    Cuts (asOp (required c a k)) s := by
  have heq (s : State) : required c a k s =
      (executeCmd c a s).map fun p => if p.1 = .ok then k p.2 else { p.2 with acqState := .failed } := by
    rw [required]
    cases executeCmd c a s <;> rfl
  refine cuts_asOp (g := fun st t => if st = .ok then k t else { t with acqState := .failed })
    (cuts_executeCmd hc a) (fun st => ?_) (fun j => heq (cut j s)) (heq s)
  by_cases hst : st = .ok
  · simpa only [hst, if_true] using hk
  · simp only [hst, if_false]
    exact ⟨fun _ _ => rfl, fun _ => rfl, fun _ => rfl⟩

/-- What `TrySdOpCond` does with the status of its command (R223, R238). -/
def trySdLook (st : Status) (t : State) : State :=
  if st = .ok then { t with ocr := decodeOcr t.rb, acqState := .checkSdOcr }
  else if st = .timeout then { sessionClear { t with sdTimedOut := true } with acqState := .tryMmcOpCond }
  else { t with acqState := .failed }

theorem inside_trySdLook (st : Status) : Inside (trySdLook st) := by
  unfold trySdLook
  split
  · exact ⟨fun _ _ => rfl, fun _ => rfl, fun _ => rfl⟩
  · split <;> exact ⟨fun _ _ => rfl, fun _ => rfl, fun _ => rfl⟩

theorem cuts_acqTrySd (s : State) : Cuts (asOp acqTrySd) s := by
  have heq (s : State) : acqTrySd s = (opCond .sd 0 s).map fun p => trySdLook p.1 p.2 := by
    rw [acqTrySd]
    cases opCond .sd 0 s with
    | error r => rfl
    | ok p =>
      simp only [Except.map, trySdLook]
      split
      · rfl
      · split <;> rfl
  exact cuts_asOp (cuts_opCond .sd 0) inside_trySdLook (fun k => heq (cut k s)) (heq s)

/-- What `TryMmcOpCond` does with the status of its command (R239). -/
def tryMmcLook (st : Status) (t : State) : State :=
  if st = .ok then { t with ocr := decodeOcr t.rb, acqState := .checkMmcOcr }
  else if st = .timeout then { t with mmcTimedOut := true, acqState := .failed }
  else { t with acqState := .failed }

theorem inside_tryMmcLook (st : Status) : Inside (tryMmcLook st) := by
  unfold tryMmcLook
  split
  · exact ⟨fun _ _ => rfl, fun _ => rfl, fun _ => rfl⟩
  · split <;> exact ⟨fun _ _ => rfl, fun _ => rfl, fun _ => rfl⟩

theorem cuts_acqTryMmc (s : State) : Cuts (asOp acqTryMmc) s := by
  have heq (s : State) : acqTryMmc s = (opCond .mmc 0 s).map fun p => tryMmcLook p.1 p.2 := by
    rw [acqTryMmc]
    cases opCond .mmc 0 s with
    | error r => rfl
    | ok p =>
      simp only [Except.map, tryMmcLook]
      split
      · rfl
      · split <;> rfl
  exact cuts_asOp (cuts_opCond .mmc 0) inside_tryMmcLook (fun k => heq (cut k s)) (heq s)

/-- A rule goes on to `a`. -/
theorem inside_goes (a : AcqState) : Inside fun s => { s with acqState := a } :=
  ⟨fun _ _ => rfl, fun _ => rfl, fun _ => rfl⟩

/-- CMD8, if it is enabled (R221). -/
def ifCondPhase (s : State) : Res Status :=
  if s.cfg.cmd8Enable = true then executeCmd .sendIfCond Config.ifCondArg s else .ok (.ok, s)

theorem cuts_acqReset (s : State) : Cuts (asOp acqReset) s := by
  have hifCond (s : State) : Cuts ifCondPhase s :=
    Cuts.ite (p := fun s => s.cfg.cmd8Enable = true) (fun _ _ => Iff.rfl)
      (cuts_executeCmd (by simp [AcqRow]) Config.ifCondArg s) (cuts_end Status.ok s)
  have heq (s : State) : acqReset s = (andThen (executeCmd .goIdleState 0) (fun _ => ifCondPhase) s).map
      fun p => { p.2 with acqState := .trySdOpCond } := by
    rw [acqReset, andThen]
    cases executeCmd .goIdleState 0 s with
    | error r => rfl
    | ok p =>
      simp only [ifCondPhase]
      split
      · cases executeCmd .sendIfCond Config.ifCondArg p.2 <;> rfl
      · rfl
  exact cuts_asOp (g := fun _ t => { t with acqState := .trySdOpCond })
    (Cuts.andThen (cuts_executeCmd (by simp [AcqRow]) 0) fun _ => hifCond) (fun _ => inside_goes _)
    (fun k => heq (cut k s)) (heq s)

/-- A rule without a command. -/
theorem cuts_plain {g : State → State} (h : Inside g) (s : State) : Cuts (asOp fun s => .ok (g s)) s :=
  h.cuts (fun _ => ()) (fun _ _ => rfl) s

theorem cuts_acqGetCid (next : AcqState) (s : State) : Cuts (asOp (acqGetCid next)) s :=
  cuts_required (c := .allSendCid) (a := 0)
    (k := fun t => { t with session := { t.session with cid := val128 t.rb }, acqState := next })
    (by simp [AcqRow]) ⟨fun _ _ => rfl, fun _ => rfl, fun _ => rfl⟩ s

theorem cuts_acqGetRca (s : State) : Cuts (asOp acqGetRca) s :=
  cuts_required (c := .sendRelativeAddr) (a := 0)
    (k := fun t => { t with session := { t.session with rca := decodeRca t.rb }, acqState := .getCsdSd })
    (by simp [AcqRow]) ⟨fun _ _ => rfl, fun _ => rfl, fun _ => rfl⟩ s

theorem cuts_acqSetRca (s : State) : Cuts (asOp acqSetRca) s :=
  cuts_required (c := .setRelativeAddr) (a := argMmcRca)
    (k := fun t => { t with session := { t.session with rca := Config.mmcRca }, acqState := .getCsdMmc })
    (by simp [AcqRow]) ⟨fun _ _ => rfl, fun _ => rfl, fun _ => rfl⟩ s

theorem cuts_acqGetCsd (sd : Bool) (s : State) : Cuts (asOp (acqGetCsd sd)) s := by
  have heq (s' : State) (h : s'.session = s.session) :
      acqGetCsd sd s' = required .sendCsd (rcaArg s.session.rca) (identified sd) s' := by
    rw [acqGetCsd, h]
    rfl
  have hk : Inside (identified sd) := ⟨fun _ _ => rfl, fun _ => rfl, fun _ => rfl⟩
  exact .congr (op' := asOp (required .sendCsd (rcaArg s.session.rca) (identified sd)))
    (by rw [asOp, heq s rfl, asOp]) (fun k => by rw [asOp, heq (cut k s) rfl, asOp])
    (cuts_required (by simp [AcqRow]) hk s)

theorem cuts_acqStep (s : State) : Cuts (asOp acqStep) s := by
  have rule {r : State → Except Refusal State} (h : ∀ s', s'.acqState = s.acqState → acqStep s' = r s')
      (hr : Cuts (asOp r) s) : Cuts (asOp acqStep) s :=
    .congr (by rw [asOp, h s rfl, asOp]) (fun k => by rw [asOp, h (cut k s) rfl, asOp]) hr
  have hcheck (negotiate poll : AcqState) : Inside (acqCheck negotiate poll) :=
    ⟨fun _ _ => rfl, fun _ => rfl, fun _ => rfl⟩
  cases hs : s.acqState with
  | idle | done | failed =>
    exact rule (fun s' h => by rw [acqStep, h, hs]) (cuts_plain ⟨fun _ _ => rfl, fun _ => rfl, fun _ => rfl⟩ s)
  | reset => exact rule (fun s' h => by rw [acqStep, h, hs]) (cuts_acqReset s)
  | trySdOpCond => exact rule (fun s' h => by rw [acqStep, h, hs]) (cuts_acqTrySd s)
  | tryMmcOpCond => exact rule (fun s' h => by rw [acqStep, h, hs]) (cuts_acqTryMmc s)
  | checkSdOcr | checkMmcOcr => exact rule (fun s' h => by rw [acqStep, h, hs]) (cuts_plain (hcheck _ _) s)
  | pollSdOcr | pollMmcOcr =>
    exact rule (fun s' h => by rw [acqStep, h, hs]) (cuts_afterLoop (cuts_pollLoop _) s)
  | negotiateSdOcr | negotiateMmcOcr =>
    exact rule (fun s' h => by rw [acqStep, h, hs]) (cuts_afterLoop (cuts_negotiateLoop _) s)
  | getCidSd | getCidMmc => exact rule (fun s' h => by rw [acqStep, h, hs]) (cuts_acqGetCid _ s)
  | getRcaSd => exact rule (fun s' h => by rw [acqStep, h, hs]) (cuts_acqGetRca s)
  | setRcaMmc => exact rule (fun s' h => by rw [acqStep, h, hs]) (cuts_acqSetRca s)
  | getCsdSd | getCsdMmc => exact rule (fun s' h => by rw [acqStep, h, hs]) (cuts_acqGetCsd _ s)

theorem asOp_acqRun_succ (n : Nat) (s : State) : asOp (acqRun (n + 1)) s =
    if s.acqState.terminal = true then .ok ((), s) else andThen (asOp acqStep) (fun _ => asOp (acqRun n)) s := by
  by_cases hterm : s.acqState.terminal = true
  · rw [asOp, acqRun, if_pos hterm, if_pos hterm]
  · rw [asOp, acqRun, if_neg hterm, if_neg hterm, andThen, asOp]
    cases acqStep s <;> rfl

theorem cuts_acqRun : ∀ (n : Nat) (s : State), Cuts (asOp (acqRun n)) s
  | 0, s => cuts_end () s
  | n + 1, s =>
    .congr (asOp_acqRun_succ n s) (fun k => asOp_acqRun_succ n (cut k s))
      (Cuts.ite (p := fun s => s.acqState.terminal = true) (fun _ _ => Iff.rfl) (cuts_end () s)
        (Cuts.andThen cuts_acqStep (fun _ => cuts_acqRun n) s))

/-- ACQUIRE is the acquisition from its start, and its end (R220). -/
theorem exec_acquire_ok {u : State} (hb : s.between = true) (h : acqRun acqFuel (acqStart s) = .ok u) :
    exec .acquire s = .next { acqEnd u with result := .acquired (acqEnd u).session.acquired } := by
  show execAcquire s = _
  rw [execAcquire, if_pos hb, h]

theorem exec_acquire_error {r : Refusal} (hb : s.between = true) (h : acqRun acqFuel (acqStart s) = .error r) :
    exec .acquire s = .refused r := by
  show execAcquire s = _
  rw [execAcquire, if_pos hb, h]

end acquisition

/-- Settles O37, by what an acquisition does with the card silent from some answer on (`cuts_acqRun`). -/
theorem acquireAlwaysEnds : Obligations.AcquireAlwaysEnds := by
  intro s
  refine ⟨fun hb => ?_, fun hb => ?_⟩
  · cases hrun : acqRun acqFuel (acqStart s) with
    | ok u => exact .inl ⟨_, exec_acquire_ok hb hrun⟩
    | error r =>
      obtain ⟨rfl, k, ⟨⟩, u, fs, f, hcut, hwire, -, hf, hmis⟩ :=
        (cuts_acqRun acqFuel (acqStart s)).stops (asOp_error_iff.mpr hrun)
      have hcut : acqRun acqFuel (acqStart { s with card := s.card.take k }) = .ok u := asOp_ok_iff.mp hcut
      have hend : (acqEnd u).trace = u.trace := (sameOutside_acqEnd u).trace
      exact .inr ⟨exec_acquire_error hb hrun, k, _, fs, f, exec_acquire_ok (s := { s with card := s.card.take k }) hb hcut,
        (congrArg framesOf hend).trans hwire, hf, hmis⟩
  · show execAcquire s = _
    rw [execAcquire, if_neg (by simp [hb])]

end Sys2Proof.Proofs

/-! SUPPORT. The acquisition run forward: its commands and rules on known answers, and the rules put together. -/

namespace Sys2Proof.Proofs

open Sys2Proof.Machine Sys2Proof.Laws

/-! ### The commands of the acquisition on a known answer -/

section commands
variable {s t u : State} {c : Cmd} {a w : Word} {before fs : List Frame} {k : Option FailKind} {n m : Nat} {b : Branch}
  {index i : BitVec 6} {fmt : RspFormat} {ans : Answer} {content : Reg128} {ocr : Word}

theorem Moved.weaken (h : Moved s t fs n) (hle : m ≤ n) : Moved s t fs m :=
  { h with time := (Nat.add_le_add_left hle _).trans h.time }

/-- A command of the acquisition has run: what it sent and took, and what no command writes. -/
structure Ran (s t : State) (fs : List Frame) (n : Nat) : Prop where
  moved : Moved s t fs n
  frame : CommandFrame s t

theorem ran_of_ended {rsp : Rsp} {st : Status} {r : Result} (hls : c.descriptor.ls = true)
    (hd : c.descriptor.data = false) (hx : executeCmd c a s = .ok (st, t))
    (e : Ended c s fs k n rsp { t with result := r }) : Ran s t fs n :=
  ⟨moved_of_executed (executed_of_executeCmd hx) hls hd e.done.wire e.done.card e.time,
    (executed_of_executeCmd hx).frame⟩

/-- A command whose own exchange is judged. -/
theorem ran_of_verdict (hls : c.descriptor.ls = true) (hd : c.descriptor.data = false) (hr : Reaches c a s u before)
    (v : Verdict c.descriptor.index c.descriptor.rsp c.descriptor.busy (answerAt s before.length) k n) :
    ∃ t, executeCmd c a s = .ok (statusOf k, t) ∧ Ran s t (before ++ [cmdFrame c.descriptor.index a]) n ∧
      (k = none → ∃ pad, t.rb = assembleRb pad (answerAt s before.length).rsp) := by
  obtain ⟨t, hx, e⟩ := executeCmd_of_verdict hr v fun _ => hd
  exact ⟨t, hx, ran_of_ended hls hd hx e, e.rb⟩

/-- The same without an APP_CMD. -/
theorem ran_of_plain (hc : IdentRow c)
    (v : Verdict c.descriptor.index c.descriptor.rsp c.descriptor.busy (answerAt s 0) k n) :
    ∃ t, executeCmd c a s = .ok (statusOf k, t) ∧ Ran s t [cmdFrame c.descriptor.index a] n ∧
      (k = none → ∃ pad, t.rb = assembleRb pad (answerAt s 0).rsp) := by
  obtain ⟨hls, hacmd, hd⟩ := hc
  exact ran_of_verdict hls hd (reaches_plain hacmd) v

/-- A command without a response (R161). -/
theorem ran_goIdleState (s : State) :
    ∃ t, executeCmd .goIdleState 0 s = .ok (.ok, t) ∧ Ran s t [cmdFrame 0#6 0#32] 0 := by
  have hr : Reaches .goIdleState 0 s (clocked .goIdleState 0 s) [] := reaches_plain rfl
  obtain ⟨u, hsent⟩ : ∃ u, exchange 0#6 0#32 .none false (clocked .goIdleState 0 s) = .ok (none, u) :=
    ⟨_, exchange_none rfl⟩
  have hx : executeCmd .goIdleState 0 s = .ok (.ok, (finish Cmd.goIdleState.descriptor none u).2) :=
    hr.run.trans (mainPhase_done (c := .goIdleState) hsent fun _ => rfl)
  exact ⟨_, hx, moved_executeCmd (c := .goIdleState) ⟨rfl, rfl, rfl⟩ hx, (executed_of_executeCmd hx).frame⟩

/-- ACMD41 whose APP_CMD is not answered (R193, R203). -/
theorem ran_acmd41_silent (h : (answerAt s 0).rsp = .noResponse) :
    ∃ t, opCond .sd a s = .ok (.timeout, t) ∧ Ran s t [cmdFrame 55#6 (rcaArg s.session.rca)] Config.tCmdMs := by
  obtain ⟨u, hx, hsent, htime⟩ := appCmd_of_verdict (c := .sdSendOpCond) (a := a) (.silent (by decide) h)
  have run : executeCmd .sdSendOpCond a s = .ok (finish Cmd.sdSendOpCond.descriptor _ u) :=
    execute_prefix_fails rfl rfl rfl hx
  exact ⟨_, run, ran_of_ended rfl rfl run (ended_of_finish (rsp := .noResponse) run hsent htime nofun)⟩

/-- A 48-bit response, or none, is judged one way or another. -/
theorem exists_verdict (hf : fmt.is48 = true) (h : ∀ content, ans.rsp ≠ .rsp136 content) :
    ∃ k n, Verdict index fmt false ans k n := by
  have hfmt : fmt ≠ .none := by rintro rfl; cases hf
  cases hr : ans.rsp with
  | noResponse => exact ⟨_, _, .silent hfmt hr⟩
  | rsp136 content => exact absurd hr (h content)
  | rsp48 idx payload crc =>
    have hfit : ans.rsp.fits fmt = true := by rw [hr]; exact hf
    have hne : ans.rsp ≠ .noResponse := by simp [hr]
    cases hcheck : checkRsp index fmt ans.rsp with
    | some k => exact ⟨_, _, .bad hfit hne hcheck⟩
    | none => exact ⟨_, _, .good hfit hne hcheck nofun⟩

/-- The card answers the operating-condition command of a branch with this OCR (R162, R174, R226). -/
def OcrAnswered (ocr : Word) (s : State) : Branch → Prop
  | .sd => (∃ w, (answerAt s 0).rsp = goodRsp 55#6 w) ∧ ∃ i crc, (answerAt s 1).rsp = .rsp48 i ocr crc
  | .mmc => ∃ i crc, (answerAt s 0).rsp = .rsp48 i ocr crc

/-- The frames of that command when its APP_CMD is answered well. -/
def opCondSent (rca : BitVec 16) (a : Word) : Branch → List Frame
  | .sd => [cmdFrame 55#6 (rcaArg rca), cmdFrame 41#6 a]
  | .mmc => [cmdFrame 1#6 a]

theorem ran_opCond (h : OcrAnswered ocr s b) : ∃ t, opCond b a s = .ok (.ok, t) ∧
    Ran s t (opCondSent s.session.rca a b) 0 ∧ decodeOcr t.rb = ocr := by
  have taken {t : State} {ans : Answer} (hans : ∃ i crc, ans.rsp = .rsp48 i ocr crc)
      (hrb : ∃ pad, t.rb = assembleRb pad ans.rsp) : decodeOcr t.rb = ocr := by
    obtain ⟨i, crc, hans⟩ := hans
    obtain ⟨pad, hrb⟩ := hrb
    rw [hrb, hans, decodeOcr_assembleRb]
  cases b with
  | sd =>
    obtain ⟨⟨w, hprefix⟩, i, crc, hans⟩ := h
    obtain ⟨u, hr⟩ := reaches_prefixed (c := .sdSendOpCond) (a := a) rfl rfl hprefix
    obtain ⟨t, hx, ran, hrb⟩ := ran_of_verdict rfl rfl hr (.unchecked rfl rfl hans)
    exact ⟨t, hx, ran, taken ⟨i, crc, hans⟩ (hrb rfl)⟩
  | mmc =>
    obtain ⟨i, crc, hans⟩ := h
    obtain ⟨t, hx, ran, hrb⟩ := ran_of_plain (c := .sendOpCond) (a := a) ⟨rfl, rfl, rfl⟩ (.unchecked rfl rfl hans)
    exact ⟨t, hx, ran, taken ⟨i, crc, hans⟩ (hrb rfl)⟩

/-- A required command that asks for a register (R233, R235). -/
theorem ran_register (hc : IdentRow c) (hf : c.descriptor.rsp = .r2) (hb : c.descriptor.busy = false)
    (h : (answerAt s 0).rsp = .rsp136 content) (hgood : regCrcGood content = true) :
    ∃ t, executeCmd c a s = .ok (.ok, t) ∧ Ran s t [cmdFrame c.descriptor.index a] 0 ∧ val128 t.rb = content := by
  have v := Verdict.register (index := c.descriptor.index) hf hb h
  rw [if_pos hgood] at v
  obtain ⟨t, hx, ran, hrb⟩ := ran_of_plain hc v
  obtain ⟨pad, hrb⟩ := hrb rfl
  exact ⟨t, hx, ran, by rw [hrb, h, val128_assembleRb]⟩

/-- CMD3 accepted, in either branch (R234, R244). -/
theorem ran_accepted (hc : IdentRow c) (hf : c.descriptor.rsp.checksIndex = true) (hb : c.descriptor.busy = false)
    (h : (answerAt s 0).rsp = goodRsp c.descriptor.index w) :
    ∃ t, executeCmd c a s = .ok (.ok, t) ∧ Ran s t [cmdFrame c.descriptor.index a] 0 ∧
      decodeRca t.rb = w.extractLsb' 16 16 := by
  obtain ⟨t, hx, ran, hrb⟩ := ran_of_plain (a := a) hc (.accepted hf h (by simp [hb]))
  obtain ⟨pad, hrb⟩ := hrb rfl
  exact ⟨t, hx, ran, by rw [hrb, h, goodRsp, decodeRca_assembleRb]⟩

theorem required_ok {k : State → State} (h : executeCmd c a s = .ok (.ok, t)) : required c a k s = .ok (k t) := by
  simp [required, h]

end commands

/-! ### Rules in a row -/

/-- `m` rules lead from `s` to `t`: an ACQUIRE that comes to `s` goes on as from `t`. -/
structure Leads (m : Nat) (s t : State) (fs : List Frame) (n : Nat) : Prop where
  run   : ∀ j, acqRun (j + m) s = acqRun j t
  moved : Moved s t fs n

section leads
variable {s t u v : State} {fs gs : List Frame} {m m' n n' : Nat}

theorem Leads.trans (h : Leads m s t fs n) (k : Leads m' t u gs n') : Leads (m + m') s u (fs ++ gs) (n + n') :=
  ⟨fun j => by rw [Nat.add_comm m, ← Nat.add_assoc, h.run, k.run], h.moved.trans k.moved⟩

/-- One rule. -/
theorem leads_rule (hrun : s.acqState.terminal = false) (h : acqStep s = .ok t) (hm : Moved s t fs n) :
    Leads 1 s t fs n :=
  ⟨fun j => by rw [acqRun, if_neg (by simp [hrun]), h], hm⟩

/-- A row of rules that ends the acquisition is all of it. -/
theorem Leads.acqRun_eq (h : Leads m s t fs n) (hm : m ≤ acqFuel) (ht : t.acqState = .done ∨ t.acqState = .failed) :
    acqRun acqFuel s = .ok t := by
  have hterm : t.acqState.terminal = true := by simpa [AcqState.terminal] using ht
  rw [← Nat.sub_add_cancel hm, h.run]
  cases acqFuel - m with
  | zero => rfl
  | succ j => rw [acqRun, if_pos hterm]

/-- The rule goes on to another state. -/
theorem moved_goes (a : AcqState) (s : State) : Moved s { s with acqState := a } [] 0 :=
  moved_write _ a _ _ _ _ _ _ _ _ s

theorem moved_acqStart (s : State) : Moved s (acqStart s) [] 0 :=
  (moved_sessionClear s).write (moved_write _ _ _ _ _ _ _ _ _ _ _)

/-- The ACQUIRE that these rules make up. -/
theorem Leads.acquire (h : Leads m (acqStart s) t fs n) (hm : m ≤ acqFuel) (hb : s.between = true)
    (ht : t.acqState = .done ∨ t.acqState = .failed) :
    exec .acquire s = .next { acqEnd t with result := .acquired (acqEnd t).session.acquired } ∧
      Moved s { acqEnd t with result := .acquired (acqEnd t).session.acquired } fs n := by
  refine ⟨exec_acquire_ok hb (h.acqRun_eq hm ht), Moved.write ?_ (moved_acqEnd _ ht)⟩
  simpa using (moved_acqStart s).trans h.moved

end leads

/-! ### The rules on a known answer -/

section rules
variable {s : State} {b : Branch} {k : Option FailKind} {n : Nat} {ocr w : Word} {content : Reg128} {next : AcqState}

/-- State `Reset` without CMD8 (R221). -/
theorem leads_reset_plain (hs : s.acqState = .reset) (h8 : s.cfg.cmd8Enable = false) :
    ∃ t, Leads 1 s t [cmdFrame 0#6 0#32] 0 ∧ t.acqState = .trySdOpCond ∧ t.session = s.session := by
  obtain ⟨t, hx, ran⟩ := ran_goIdleState s
  have hrule : acqStep s = .ok { t with acqState := .trySdOpCond } := by
    rw [acqStep, hs]
    simp only [acqReset, hx, ran.frame.cfg, h8, Bool.false_eq_true, if_false]
  exact ⟨_, leads_rule (by simp [hs, AcqState.terminal]) hrule (ran.moved.write (moved_write _ _ _ _ _ _ _ _ _ _ t)),
    rfl, ran.frame.session⟩

/-- State `Reset` with CMD8, which is judged and its status ignored (R221). -/
theorem leads_reset (hs : s.acqState = .reset) (h8 : s.cfg.cmd8Enable = true)
    (v : Verdict 8#6 .r7 false (answerAt s 1) k n) :
    ∃ t, Leads 1 s t [cmdFrame 0#6 0#32, cmdFrame 8#6 Config.ifCondArg] n ∧ t.acqState = .trySdOpCond ∧
      t.session = s.session := by
  obtain ⟨t, hx, ran⟩ := ran_goIdleState s
  have hans : answerAt t 0 = answerAt s 1 := by simp [answerAt, ran.moved.card]
  obtain ⟨u, hy, ran', -⟩ := ran_of_plain (c := .sendIfCond) (a := Config.ifCondArg) (s := t) ⟨rfl, rfl, rfl⟩ (hans ▸ v)
  have hrule : acqStep s = .ok { u with acqState := .trySdOpCond } := by
    rw [acqStep, hs]
    simp only [acqReset, hx, ran.frame.cfg, h8, hy, if_true]
  have hm := (ran.moved.trans ran'.moved).write (moved_goes .trySdOpCond u)
  rw [Nat.zero_add] at hm
  exact ⟨_, leads_rule (by simp [hs, AcqState.terminal]) hrule hm, rfl, (ran.frame.trans ran'.frame).session⟩

/-- State `TrySdOpCond` when the APP_CMD is not answered: the session is cleared and the MMC branch tried (R238). -/
theorem leads_trySd_silent (hs : s.acqState = .trySdOpCond) (h : (answerAt s 0).rsp = .noResponse) :
    ∃ t, Leads 1 s t [cmdFrame 55#6 (rcaArg s.session.rca)] Config.tCmdMs ∧ t.acqState = .tryMmcOpCond ∧
      t.session = Session.zero ∧ t.sdTimedOut = true := by
  obtain ⟨t, hx, ran⟩ := ran_acmd41_silent (a := 0) h
  have hrule : acqStep s = .ok { sessionClear { t with sdTimedOut := true } with acqState := .tryMmcOpCond } := by
    rw [acqStep, hs]
    simp only [acqTrySd, hx]; simp
  have hm := ((ran.moved.write (moved_write t.session t.acqState t.acqResult t.tries t.negT0 t.ocr t.negArg true t.mmcTimedOut t.result t)).write (moved_sessionClear _)).write
    (moved_goes .tryMmcOpCond _)
  exact ⟨_, leads_rule (by simp [hs, AcqState.terminal]) hrule hm, rfl, rfl, rfl⟩

/-- State `TryMmcOpCond` when CMD1 is not answered (R239). -/
theorem leads_tryMmc_silent (hs : s.acqState = .tryMmcOpCond) (h : (answerAt s 0).rsp = .noResponse) :
    ∃ t, Leads 1 s t [cmdFrame 1#6 0#32] Config.tCmdMs ∧ t.acqState = .failed ∧
      t.sdTimedOut = s.sdTimedOut ∧ t.mmcTimedOut = true := by
  obtain ⟨t, hx, ran, -⟩ := ran_of_plain (c := .sendOpCond) (a := 0) ⟨rfl, rfl, rfl⟩ (.silent (by decide) h)
  have hrule : acqStep s = .ok { t with mmcTimedOut := true, acqState := .failed } := by
    rw [acqStep, hs]
    simp only [acqTryMmc, opCond, hx]; simp [statusOf]
  exact ⟨_, leads_rule (by simp [hs, AcqState.terminal]) hrule (ran.moved.write (moved_write _ _ _ _ _ _ _ _ _ _ t)),
    rfl, ran.frame.sdTimedOut, rfl⟩

/-! The states of a branch. -/

/-- Where the branch's first OCR is asked for (R223, R239). -/
def tryState : Branch → AcqState
  | .sd => .trySdOpCond
  | .mmc => .tryMmcOpCond

/-- Where it is looked at (R224, R240). -/
def checkState : Branch → AcqState
  | .sd => .checkSdOcr
  | .mmc => .checkMmcOcr

/-- Where the branch negotiates (R232, R242). -/
def negotiateState : Branch → AcqState
  | .sd => .negotiateSdOcr
  | .mmc => .negotiateMmcOcr

/-- Where its identification begins (R233, R243). -/
def cidState : Branch → AcqState
  | .sd => .getCidSd
  | .mmc => .getCidMmc

/-- The first OCR of a branch (R223, R239). -/
theorem leads_try (hs : s.acqState = tryState b) (h : OcrAnswered ocr s b) :
    ∃ t, Leads 1 s t (opCondSent s.session.rca 0 b) 0 ∧ t.acqState = checkState b ∧ t.session = s.session ∧
      t.ocr = ocr := by
  obtain ⟨t, hx, ran, hocr⟩ := ran_opCond (a := 0) h
  have hrule : acqStep s = .ok { t with ocr := decodeOcr t.rb, acqState := checkState b } := by
    rw [acqStep, hs]
    cases b
    · simp only [tryState, checkState, acqTrySd, hx, if_true]
    · simp only [tryState, checkState, acqTryMmc, hx, if_true]
  exact ⟨_, leads_rule (by cases b <;> simp [hs, tryState, AcqState.terminal]) hrule
    (ran.moved.write (moved_write _ _ _ _ _ _ _ _ _ _ t)), rfl, ran.frame.session, hocr⟩

/-- A look at the OCR (R224, R240). -/
theorem leads_check {negotiate poll : AcqState} (hrun : s.acqState.terminal = false)
    (h : acqStep s = .ok (acqCheck negotiate poll s)) :
    ∃ t, Leads 1 s t [] 0 ∧ t.acqState = (if ocrReady s.ocr then negotiate else poll) ∧ t.session = s.session ∧
      t.ocr = s.ocr :=
  ⟨_, leads_rule hrun h (moved_goes _ s), rfl, rfl, rfl⟩

/-- A ready OCR needs no poll. -/
theorem leads_check_ready (hs : s.acqState = checkState b) (h : ocrReady s.ocr = true) :
    ∃ t, Leads 1 s t [] 0 ∧ t.acqState = negotiateState b ∧ t.session = s.session ∧ t.ocr = s.ocr := by
  have hlook : ∃ poll, acqStep s = .ok (acqCheck (negotiateState b) poll s) := by
    rw [acqStep, hs]
    cases b <;> exact ⟨_, rfl⟩
  obtain ⟨poll, hlook⟩ := hlook
  have hnext := leads_check (by cases b <;> simp [hs, checkState, AcqState.terminal]) hlook
  rwa [if_pos h] at hnext

/-- An OCR that is not ready is polled for. -/
theorem leads_checkSd_poll (hs : s.acqState = .checkSdOcr) (h : ocrReady s.ocr = false) :
    ∃ t, Leads 1 s t [] 0 ∧ t.acqState = .pollSdOcr ∧ t.session = s.session ∧ t.ocr = s.ocr := by
  have hnext := leads_check (s := s) (negotiate := .negotiateSdOcr) (poll := .pollSdOcr)
    (by simp [hs, AcqState.terminal]) (by rw [acqStep, hs])
  rwa [if_neg (by simp [h])] at hnext

/-- What a try of the negotiation writes when it sees the power-up bit (R228). -/
def negotiated (t : State) : State :=
  { t with tries := t.tries + 1, ocr := decodeOcr t.rb, session := { t.session with acquireTimeMs := negElapsed t } }

theorem negTry_ready {t : State} (hx : opCond b s.negArg s = .ok (.ok, t)) (h : ocrReady (decodeOcr t.rb) = true) :
    negTry b s = .ok (.success, negotiated t) := by
  rw [negTry_eq_andThen, andThen_ok hx, negLook, if_pos rfl, if_pos h]
  rfl

/-- A negotiation whose first try sees the power-up bit (R228). -/
theorem leads_negotiate (hs : s.acqState = negotiateState b) (h : OcrAnswered ocr s b) (hready : ocrReady ocr = true) :
    ∃ t, Leads 1 s t (opCondSent s.session.rca (s.ocr &&& s.cfg.hostOcrMask) b) 0 ∧ t.acqState = cidState b ∧
      ∃ ms, t.session = { s.session with acquireTimeMs := ms } := by
  have hans : OcrAnswered ocr (negEntered s) b := by cases b <;> exact h
  obtain ⟨t, hx, ran, rfl⟩ := ran_opCond (a := (negEntered s).negArg) hans
  obtain ⟨j, hj⟩ : ∃ j, max 1 s.cfg.negMaxTries = j + 1 := ⟨max 1 s.cfg.negMaxTries - 1, by omega⟩
  have hloop : negotiateLoop b s = .ok (true, negotiated t) := by
    show negTurns b (max 1 s.cfg.negMaxTries) (negEntered s) = _
    rw [hj, negTurns, negTry_ready hx hready]
  have hrule : acqStep s = .ok { negotiated t with acqState := cidState b } := by
    rw [acqStep, hs]
    cases b <;> simp only [negotiateState, cidState, hloop, afterLoop, if_true]
  have hentered : Moved s (negEntered s) [] 0 :=
    moved_write s.session s.acqState s.acqResult 0 s.nowMs s.ocr _ s.sdTimedOut s.mmcTimedOut s.result s
  have hm := ((hentered.trans ran.moved).write (u := negotiated t)
    (moved_write _ _ _ _ _ _ _ _ _ _ t)).write (moved_goes (cidState b) _)
  refine ⟨_, leads_rule (by cases b <;> simp [hs, negotiateState, AcqState.terminal]) hrule hm, rfl, negElapsed t, ?_⟩
  show { t.session with acquireTimeMs := negElapsed t } = _
  rw [ran.frame.session]
  rfl

/-! The poll of an SD card. -/

theorem ocrAnswered_of_pair {p : Answer × Answer} {rest : List Answer} (hcard : s.card = p.1 :: p.2 :: rest)
    (h : ∃ w, p.1.rsp = goodRsp 55#6 w) (h' : ∃ i crc, p.2.rsp = .rsp48 i ocr crc) : OcrAnswered ocr s .sd := by
  simpa [OcrAnswered, answerAt, hcard] using And.intro h h'

/-- A try of the poll loop on an answer (R227). -/
theorem moved_pollTry (h : OcrAnswered ocr s .sd) :
    ∃ t, pollTry .sd s = .ok (if ocrReady ocr then .success else .again, t) ∧
      Moved s t (opCondSent s.session.rca 0 .sd) Config.pollSpacingMs ∧ t.session = s.session ∧ t.ocr = ocr := by
  have hans : OcrAnswered ocr (delayMs Config.pollSpacingMs s) .sd := h
  obtain ⟨t, hx, ran, rfl⟩ := ran_opCond (a := 0) hans
  have htry : pollTry .sd s = .ok (if ocrReady (decodeOcr t.rb) then .success else .again,
      { t with tries := t.tries + 1, ocr := decodeOcr t.rb }) := by
    simp only [pollTry, hx]; simp
  have hm := (moved_delayMs Config.pollSpacingMs s).trans ran.moved
  exact ⟨_, htry, hm.write (moved_write _ _ _ _ _ _ _ _ _ _ t), ran.frame.session, rfl⟩

/-- The tries of the poll loop: not ready, as often as that is answered, then ready. -/
theorem moved_pollTurns {last : Answer × Answer} {rest : List Answer} {polls : List (Answer × Answer)}
    (hpolls : ∀ p ∈ polls, ocrPair false p) (hlast : ∃ w, last.1.rsp = goodRsp 55#6 w)
    (hocr : ∃ i crc, last.2.rsp = .rsp48 i ocr crc) (hready : ocrReady ocr = true) (hlen : polls.length < n)
    (hcard : s.card = pairAnswers polls ++ last.1 :: last.2 :: rest) :
    ∃ t, pollTurns .sd n s = .ok (true, t) ∧
      Moved s t (List.replicate (polls.length + 1) (opCondSent s.session.rca 0 .sd)).flatten
        ((polls.length + 1) * Config.pollSpacingMs) ∧
      t.session = s.session ∧ t.ocr = ocr ∧ t.card = rest := by
  obtain ⟨n, rfl⟩ : ∃ m, n = m + 1 := ⟨n - 1, by omega⟩
  induction polls generalizing n s with
  | nil =>
    obtain ⟨t, htry, hm, hsession, ht⟩ := moved_pollTry (ocrAnswered_of_pair hcard hlast hocr)
    rw [if_pos hready] at htry
    exact ⟨t, by rw [pollTurns, htry], by simpa using hm, hsession, ht, by rw [hm.card, hcard]; rfl⟩
  | cons p polls ih =>
    obtain ⟨⟨hprefix, i, o, crc, hrsp, hbusy⟩, hpolls⟩ := List.forall_mem_cons.mp hpolls
    obtain ⟨t, htry, hm, hsession, -⟩ := moved_pollTry (ocrAnswered_of_pair hcard hprefix ⟨i, crc, hrsp⟩)
    rw [List.length_cons] at hlen
    obtain ⟨n, rfl⟩ : ∃ m, n = m + 1 := ⟨n - 1, by omega⟩
    obtain ⟨u, hturns, hm', hsession', hu⟩ := ih (s := t) hpolls (by rw [hm.card, hcard]; rfl) n (by omega)
    refine ⟨u, ?_, ?_, hsession'.trans hsession, hu⟩
    · rw [pollTurns, htry, hbusy]
      exact hturns
    · rw [hsession] at hm'
      rw [List.length_cons, Nat.succ_mul, Nat.add_comm (_ * _)]
      exact hm.trans hm'

/-- State `PollSdOcr` on such a card (R225). -/
theorem leads_pollSd {last : Answer × Answer} {polls : List (Answer × Answer)} {rest : List Answer}
    (hs : s.acqState = .pollSdOcr) (hcard : s.card = pairAnswers polls ++ last.1 :: last.2 :: rest)
    (hpolls : ∀ p ∈ polls, ocrPair false p) (hlen : polls.length < Config.pollTries)
    (hlast : ∃ w, last.1.rsp = goodRsp 55#6 w) (hocr : ∃ i crc, last.2.rsp = .rsp48 i ocr crc)
    (hready : ocrReady ocr = true) :
    ∃ t, Leads 1 s t (List.replicate (polls.length + 1) (opCondSent s.session.rca 0 .sd)).flatten
        ((polls.length + 1) * Config.pollSpacingMs) ∧
      t.acqState = .negotiateSdOcr ∧ t.session = s.session ∧ t.ocr = ocr ∧ t.card = rest := by
  obtain ⟨t, hturns, hm, hsession, ht, hc⟩ :=
    moved_pollTurns (s := { s with tries := 0 }) hpolls hlast hocr hready hlen hcard
  have hloop : pollLoop .sd s = .ok (true, t) := hturns
  have hrule : acqStep s = .ok { t with acqState := .negotiateSdOcr } := by
    rw [acqStep, hs]
    simp [hloop, afterLoop]
  have hm' := ((moved_write s.session s.acqState s.acqResult 0 s.negT0 s.ocr s.negArg s.sdTimedOut s.mmcTimedOut s.result s).trans hm).write (moved_goes .negotiateSdOcr t)
  rw [List.nil_append, Nat.zero_add] at hm'
  exact ⟨_, leads_rule (by simp [hs, AcqState.terminal]) hrule hm', rfl, hsession, ht, hc⟩

/-! The identification. -/

/-- The RCA of a card (R234, R244): the SD card's own, which it answers to CMD3, or the fixed one. -/
def rcaGiven (w : Word) : Branch → BitVec 16
  | .sd => w.extractLsb' 16 16
  | .mmc => Config.mmcRca

/-- The argument of CMD3 (R234, R244). -/
def rcaAsked : Branch → Word
  | .sd => 0
  | .mmc => argMmcRca

/-- Where CMD3 goes out. -/
def rcaState : Branch → AcqState
  | .sd => .getRcaSd
  | .mmc => .setRcaMmc

/-- Where CMD9 goes out. -/
def csdState : Branch → AcqState
  | .sd => .getCsdSd
  | .mmc => .getCsdMmc

/-- CMD2 (R233, R243). -/
theorem leads_cid (hs : s.acqState = cidState b) (h : (answerAt s 0).rsp = .rsp136 content)
    (hgood : regCrcGood content = true) :
    ∃ t, Leads 1 s t [cmdFrame 2#6 0#32] 0 ∧ t.acqState = rcaState b ∧
      t.session = { s.session with cid := content } := by
  obtain ⟨t, hx, ran, rfl⟩ := ran_register (c := .allSendCid) (a := 0) ⟨rfl, rfl, rfl⟩ rfl rfl h hgood
  have hrule : acqStep s = .ok { t with session := { t.session with cid := val128 t.rb }, acqState := rcaState b } := by
    rw [acqStep, hs]
    cases b <;> exact required_ok hx
  exact ⟨_, leads_rule (by cases b <;> simp [hs, cidState, AcqState.terminal]) hrule
    (ran.moved.write (moved_write _ _ _ _ _ _ _ _ _ _ t)), rfl, by rw [ran.frame.session]⟩

/-- CMD3 (R234, R244). -/
theorem leads_rca (hs : s.acqState = rcaState b) (h : (answerAt s 0).rsp = goodRsp 3#6 w) :
    ∃ t, Leads 1 s t [cmdFrame 3#6 (rcaAsked b)] 0 ∧ t.acqState = csdState b ∧
      t.session = { s.session with rca := rcaGiven w b } := by
  cases b with
  | sd =>
    obtain ⟨t, hx, ran, hrca⟩ := ran_accepted (c := .sendRelativeAddr) (a := 0) ⟨rfl, rfl, rfl⟩ rfl rfl h
    have hrule : acqStep s =
        .ok { t with session := { t.session with rca := decodeRca t.rb }, acqState := .getCsdSd } := by
      rw [acqStep, hs]
      exact required_ok hx
    exact ⟨_, leads_rule (by simp [hs, rcaState, AcqState.terminal]) hrule
      (ran.moved.write (moved_write _ _ _ _ _ _ _ _ _ _ t)), rfl, by rw [ran.frame.session, hrca]; rfl⟩
  | mmc =>
    obtain ⟨t, hx, ran, -⟩ := ran_accepted (c := .setRelativeAddr) (a := argMmcRca) ⟨rfl, rfl, rfl⟩ rfl rfl h
    have hrule : acqStep s =
        .ok { t with session := { t.session with rca := Config.mmcRca }, acqState := .getCsdMmc } := by
      rw [acqStep, hs]
      exact required_ok hx
    exact ⟨_, leads_rule (by simp [hs, rcaState, AcqState.terminal]) hrule
      (ran.moved.write (moved_write _ _ _ _ _ _ _ _ _ _ t)), rfl, by rw [ran.frame.session]; rfl⟩

/-- The card is an SD card, as the branch has it (R236, R246). -/
def isSd : Branch → Bool
  | .sd => true
  | .mmc => false

/-- CMD9, and the card is identified (R235, R245). -/
theorem leads_csd (hs : s.acqState = csdState b) (h : (answerAt s 0).rsp = .rsp136 content)
    (hgood : regCrcGood content = true) :
    ∃ t u, Leads 1 s t [cmdFrame 9#6 (rcaArg s.session.rca)] 0 ∧ t = identified (isSd b) u ∧
      u.session = s.session ∧ val128 u.rb = content := by
  obtain ⟨u, hx, ran, hcsd⟩ := ran_register (c := .sendCsd) (a := rcaArg s.session.rca) ⟨rfl, rfl, rfl⟩ rfl rfl h hgood
  have hrule : acqStep s = .ok (identified (isSd b) u) := by
    rw [acqStep, hs]
    cases b <;> exact required_ok hx
  exact ⟨_, u, leads_rule (by cases b <;> simp [hs, csdState, AcqState.terminal]) hrule
    (ran.moved.write (moved_identified _ u)), rfl, ran.frame.session, hcsd⟩

/-- What the session of a card of this branch holds that reported these registers, and `w` to CMD3. -/
structure Reported (b : Branch) (cid csd : Reg128) (w : Word) (x : Session) : Prop where
  acquired : x.acquired = true
  sd       : x.sd = isSd b
  rca      : x.rca = rcaGiven w b
  cid      : x.cid = cid
  csd      : x.csd = csd

/-- The negotiation and the identification of a card that answers well (R232 to R236, R242 to R246). -/
theorem leads_identified {cid csd : Reg128} {a2 a3 a9 : Answer} {neg rest : List Answer}
    (hs : s.acqState = negotiateState b) (hsd : s.session.sd = false)
    (hcard : s.card = neg ++ a2 :: a3 :: a9 :: rest) (hneg : neg.length = opCondWidth b)
    (hans : OcrAnswered ocr s b) (hready : ocrReady ocr = true)
    (h2 : a2.rsp = .rsp136 cid) (hcid : regCrcGood cid = true) (h3 : a3.rsp = goodRsp 3#6 w)
    (h9 : a9.rsp = .rsp136 csd) (hcsd : regCrcGood csd = true) :
    ∃ t, Leads 4 s t (opCondSent s.session.rca (s.ocr &&& s.cfg.hostOcrMask) b ++ [cmdFrame 2#6 0#32,
        cmdFrame 3#6 (rcaAsked b), cmdFrame 9#6 (rcaArg (rcaGiven w b))]) 0 ∧
      t.acqState = .done ∧ t.card = rest ∧ Reported b cid csd w t.session := by
  have hwidth : (opCondSent s.session.rca (s.ocr &&& s.cfg.hostOcrMask) b).length = neg.length := by
    rw [hneg]
    cases b <;> rfl
  obtain ⟨t1, l1, hs1, ms, hx1⟩ := leads_negotiate hs hans hready
  have hc1 : t1.card = a2 :: a3 :: a9 :: rest := by rw [l1.moved.card, hcard, hwidth, List.drop_left]
  obtain ⟨t2, l2, hs2, hx2⟩ := leads_cid hs1 (by rw [answerAt, hc1]; exact h2) hcid
  have hc2 : t2.card = a3 :: a9 :: rest := by rw [l2.moved.card, hc1]; rfl
  obtain ⟨t3, l3, hs3, hx3⟩ := leads_rca hs2 (by rw [answerAt, hc2]; exact h3)
  have hc3 : t3.card = a9 :: rest := by rw [l3.moved.card, hc2]; rfl
  obtain ⟨t4, u, l4, rfl, hu, hrb⟩ := leads_csd hs3 (by rw [answerAt, hc3]; exact h9) hcsd
  have hx : u.session = { s.session with acquireTimeMs := ms, cid := cid, rca := rcaGiven w b } := by
    rw [hu, hx3, hx2, hx1]
  have hrca : t3.session.rca = rcaGiven w b := by rw [hx3]
  rw [hrca] at l4
  refine ⟨_, by simpa using ((l1.trans l2).trans l3).trans l4, rfl, by rw [l4.moved.card, hc3]; rfl, rfl, ?_, ?_, ?_,
    hrb⟩
  · show (isSd b || u.session.sd) = isSd b
    rw [hx, hsd, Bool.or_false]
  · show u.session.rca = _
    rw [hx]
  · show u.session.cid = _
    rw [hx]

end rules

end Sys2Proof.Proofs

/-! SUPPORT. The acquisitions of a silent card, an SD card and an MMC card, rule by rule. -/

namespace Sys2Proof.Proofs

open Sys2Proof.Machine Sys2Proof.Laws

/-! ### Scenario B -/

section silent
variable {s t : State} {fs : List Frame} {m n : Nat}

/-- APP_CMD carries 0 before an RCA is known (R105). -/
theorem rcaArg_zero : rcaArg Session.zero.rca = 0#32 := rfl

theorem answerAt_of_silentCard (h : silentCard s = true) (n : Nat) : (answerAt s n).rsp = .noResponse := by
  have hall : ∀ ans ∈ s.card, ans.rsp = .noResponse := by simpa [silentCard] using h
  rw [answerAt, List.headD_eq_head?_getD, List.head?_drop]
  cases hn : s.card[n]? with
  | none => rfl
  | some ans => exact hall ans (List.mem_of_getElem? hn)

theorem Moved.answerAt (h : Moved s t fs n) (j : Nat) : answerAt t j = answerAt s (fs.length + j) := by
  rw [Machine.answerAt, Machine.answerAt, h.card, List.drop_drop]

/-- State `Reset` with a silent card: CMD8, if it is enabled, waits for its response (R221, R203). -/
theorem leads_reset_silent (hs : s.acqState = .reset) (h : (answerAt s 1).rsp = .noResponse) :
    ∃ t, Leads 1 s t (cmdFrame 0#6 0#32 :: if s.cfg.cmd8Enable then [cmdFrame 8#6 Config.ifCondArg] else [])
        (if s.cfg.cmd8Enable then Config.tCmdMs else 0) ∧
      t.acqState = .trySdOpCond ∧ t.session = s.session := by
  cases h8 : s.cfg.cmd8Enable with
  | true => exact leads_reset hs h8 (.silent (by decide) h)
  | false => exact leads_reset_plain hs h8

/-- The rules of Scenario B (R252). -/
theorem leads_silent (hs : s.acqState = .reset) (hx : s.session = Session.zero)
    (h : ∀ n, (answerAt s n).rsp = .noResponse) :
    ∃ t, Leads 3 s t (cmdFrame 0#6 0#32 :: ((if s.cfg.cmd8Enable then [cmdFrame 8#6 Config.ifCondArg] else []) ++
        [cmdFrame 55#6 0#32, cmdFrame 1#6 0#32])) ((if s.cfg.cmd8Enable then 3 else 2) * Config.tCmdMs) ∧
      t.acqState = .failed ∧ t.sdTimedOut = true ∧ t.mmcTimedOut = true := by
  obtain ⟨t1, l1, hs1, hx1⟩ := leads_reset_silent hs (h 1)
  obtain ⟨t2, l2, hs2, -, hsd⟩ := leads_trySd_silent hs1 (by rw [l1.moved.answerAt]; exact h _)
  obtain ⟨t3, l3, hs3, hsd', hmmc⟩ := leads_tryMmc_silent hs2 (by rw [l2.moved.answerAt, l1.moved.answerAt]; exact h _)
  rw [hx1, hx] at l2
  have l := (l1.trans l2).trans l3
  refine ⟨t3, ⟨l.run, ?_⟩, hs3, hsd'.trans hsd, hmmc⟩
  have hm := l.moved
  cases h8 : s.cfg.cmd8Enable <;> simpa [h8, rcaArg_zero, Config.tCmdMs] using hm

end silent

/-- Settles O40: the three rules of `leads_silent`, which leave both marks. -/
theorem silentCardIsNoCard : Obligations.SilentCardIsNoCard := by
  intro s hb hsilent
  obtain ⟨t, l, hs, hsd, hmmc⟩ := leads_silent (s := acqStart s) rfl rfl (answerAt_of_silentCard (s := acqStart s) hsilent)
  obtain ⟨hexec, hm⟩ := l.acquire (by decide) hb (.inr hs)
  rw [acqEnd_failed hs, hsd, hmmc] at hexec hm
  exact ⟨_, hexec, rfl, hs, rfl, rfl, hm.wire, hm.time⟩

/-! ### Cards that are acquired -/

section acquired
variable {s t : State} {fs : List Frame} {m n : Nat} {b : Branch} {cid csd : Reg128} {w : Word}

/-- Rules that end with an identified card make up an ACQUIRE that reports it (R247). -/
theorem Leads.acquired (l : Leads m (acqStart s) t fs n) (hm : m ≤ acqFuel) (hb : s.between = true)
    (hs : t.acqState = .done) (hx : Reported b cid csd w t.session) :
    ∃ u, exec .acquire s = .next u ∧ u.result = .acquired true ∧ u.acqState = .done ∧ u.acqResult = .acquired ∧
      u.card = t.card ∧ Reported b cid csd w u.session ∧ Moved s u fs n := by
  obtain ⟨hexec, hmoved⟩ := l.acquire hm hb (.inl hs)
  rw [acqEnd_done hs] at hexec hmoved
  exact ⟨_, hexec, congrArg Result.acquired hx.acquired, hs, rfl, rfl, hx, hmoved⟩

end acquired

/-- The rules of an SD card that is first not ready, up to its negotiation (R221 to R227). -/
theorem leads_polled {s : State} {a0 a8 : Answer} {first last : Answer × Answer} {polls : List (Answer × Answer)}
    {rest : List Answer} {ocr : Word} (hs : s.acqState = .reset) (hx : s.session = Session.zero)
    (h8 : s.cfg.cmd8Enable = true)
    (hcard : s.card = a0 :: a8 :: first.1 :: first.2 :: (pairAnswers polls ++ last.1 :: last.2 :: rest))
    (ha8 : ∀ c, a8.rsp ≠ .rsp136 c) (hfirst : ocrPair false first) (hpolls : ∀ p ∈ polls, ocrPair false p)
    (hlen : polls.length < Config.pollTries) (hlast : ∃ w, last.1.rsp = goodRsp 55#6 w)
    (hocr : ∃ i c, last.2.rsp = .rsp48 i ocr c) (hready : ocrReady ocr = true) :
    ∃ t, Leads 4 s t ([cmdFrame 0#6 0#32, cmdFrame 8#6 Config.ifCondArg] ++
        (List.replicate (polls.length + 2) [cmdFrame 55#6 0#32, cmdFrame 41#6 0#32]).flatten)
        ((polls.length + 1) * Config.pollSpacingMs) ∧
      t.acqState = .negotiateSdOcr ∧ t.session = Session.zero ∧ t.ocr = ocr ∧ t.card = rest := by
  obtain ⟨k, n, v⟩ : ∃ k n, Verdict 8#6 .r7 false (answerAt s 1) k n :=
    exists_verdict rfl (by rw [answerAt, hcard]; exact ha8)
  obtain ⟨t1, l1, hs1, hx1⟩ := leads_reset hs h8 v
  have hc1 : t1.card = first.1 :: first.2 :: (pairAnswers polls ++ last.1 :: last.2 :: rest) := by
    rw [l1.moved.card, hcard]; rfl
  obtain ⟨hprefix, i, o, crc, hrsp, hbusy⟩ := hfirst
  obtain ⟨t2, l2, hs2, hx2, ho2⟩ := leads_try (b := .sd) hs1 (ocrAnswered_of_pair hc1 hprefix ⟨i, crc, hrsp⟩)
  have hc2 : t2.card = pairAnswers polls ++ last.1 :: last.2 :: rest := by rw [l2.moved.card, hc1]; rfl
  obtain ⟨t3, l3, hs3, hx3, -⟩ := leads_checkSd_poll hs2 (ho2.symm ▸ hbusy)
  obtain ⟨t4, l4, hs4, hx4, ho4, hc4⟩ := leads_pollSd hs3 (l3.moved.card.trans hc2) hpolls hlen hlast hocr hready
  have hx1 : t1.session = Session.zero := hx1.trans hx
  have hx3 : t3.session = Session.zero := hx3.trans (hx2.trans hx1)
  have l := ((l1.trans l2).trans l3).trans l4
  refine ⟨t4, ⟨l.run, Moved.weaken (n := n + 0 + 0 + (polls.length + 1) * Config.pollSpacingMs) ?_ (by omega)⟩, hs4,
    hx4.trans hx3, ho4, hc4⟩
  have hm := l.moved
  simp only [opCondSent, hx1, hx3, rcaArg_zero, List.append_nil, List.append_assoc] at hm
  rwa [List.replicate_succ, List.flatten_cons]

/-- Settles O41: the rules up to the negotiation (`leads_polled`), and those from there (`leads_identified`). -/
theorem sdCardIsAcquired : Obligations.SdCardIsAcquired := by
  intro s a0 a8 a2 a3 a9 first last neg polls rest ocr rca cid csd hb h8 hcard ha8 hfirst hpolls hlen hlast hocr hneg
    h2 hcid h3 h9 hcsd
  have hcard : s.card = a0 :: a8 :: first.1 :: first.2 ::
      (pairAnswers polls ++ last.1 :: last.2 :: ([neg.1, neg.2] ++ a2 :: a3 :: a9 :: rest)) := by
    simpa [pairAnswers] using hcard
  obtain ⟨hlast, i, o, crc, hrsp, hready⟩ := hlast
  obtain rfl : o = ocr := by
    obtain ⟨i', crc', hrsp'⟩ := hocr
    exact (Rsp.rsp48.inj (hrsp.symm.trans hrsp')).2.1
  obtain ⟨hneg1, i', o', crc', hneg2, hnegReady⟩ := hneg
  obtain ⟨t, l, hs, hx, rfl, hc⟩ := leads_polled (s := acqStart s) rfl rfl h8 hcard ha8 hfirst hpolls hlen hlast hocr
    hready
  obtain ⟨u, l', hs', hc', hx'⟩ := leads_identified (b := .sd) hs (by rw [hx]; rfl) hc rfl
    (ocrAnswered_of_pair hc hneg1 ⟨i', crc', hneg2⟩) hnegReady h2 hcid h3 h9 hcsd
  obtain ⟨v, hexec, hresult, hdone, hacq, hcv, hxv, hm⟩ := (l.trans l').acquired (by decide) hb hs' hx'
  refine ⟨v, hexec, hresult, hdone, hacq, hxv.acquired, hxv.sd, hxv.rca, hxv.cid, hxv.csd, hcv.trans hc', ?_, hm.time⟩
  have hask : opCondSent Session.zero.rca (t.ocr &&& s.cfg.hostOcrMask) .sd =
      [cmdFrame 55#6 0#32, cmdFrame 41#6 (t.ocr &&& s.cfg.hostOcrMask)] := rfl
  have hcfg : t.cfg = s.cfg := l.moved.cfg
  rw [hm.wire, hx, hcfg, hask]
  simp [Config.ifCondArg, rcaAsked, rcaGiven, rcaArg]

/-- The rules of an MMC card that is ready at once, up to its negotiation (R221, R238 to R240). -/
theorem leads_readyMmc {s : State} {a0 a8 a55 a1 : Answer} {rest : List Answer} {i : BitVec 6} {ocr : Word}
    {crc : BitVec 7} (hs : s.acqState = .reset) (hx : s.session = Session.zero) (h8 : s.cfg.cmd8Enable = true)
    (hcard : s.card = a0 :: a8 :: a55 :: a1 :: rest) (ha8 : ∀ c, a8.rsp ≠ .rsp136 c) (h55 : a55.rsp = .noResponse)
    (h1 : a1.rsp = .rsp48 i ocr crc) (hready : ocrReady ocr = true) :
    ∃ t, Leads 4 s t [cmdFrame 0#6 0#32, cmdFrame 8#6 Config.ifCondArg, cmdFrame 55#6 0#32, cmdFrame 1#6 0#32] 0 ∧
      t.acqState = .negotiateMmcOcr ∧ t.session = Session.zero ∧ t.ocr = ocr ∧ t.card = rest := by
  obtain ⟨k, n, v⟩ : ∃ k n, Verdict 8#6 .r7 false (answerAt s 1) k n :=
    exists_verdict rfl (by rw [answerAt, hcard]; exact ha8)
  obtain ⟨t1, l1, hs1, hx1⟩ := leads_reset hs h8 v
  have hc1 : t1.card = a55 :: a1 :: rest := by rw [l1.moved.card, hcard]; rfl
  obtain ⟨t2, l2, hs2, hx2, -⟩ := leads_trySd_silent hs1 (by rw [answerAt, hc1]; exact h55)
  have hc2 : t2.card = a1 :: rest := by rw [l2.moved.card, hc1]; rfl
  obtain ⟨t3, l3, hs3, hx3, ho3⟩ := leads_try (b := .mmc) hs2 ⟨i, crc, by rw [answerAt, hc2]; exact h1⟩
  obtain ⟨t4, l4, hs4, hx4, ho4⟩ := leads_check_ready (b := .mmc) hs3 (ho3.symm ▸ hready)
  have l := ((l1.trans l2).trans l3).trans l4
  rw [hx1, hx, rcaArg_zero] at l
  exact ⟨t4, ⟨l.run, l.moved.weaken (Nat.zero_le _)⟩, hs4, hx4.trans (hx3.trans hx2), ho4.trans ho3,
    by rw [l4.moved.card, l3.moved.card, hc2]; rfl⟩

/-- Settles O42: the rules up to the negotiation (`leads_readyMmc`), and those from there (`leads_identified`). -/
theorem mmcCardIsAcquired : Obligations.MmcCardIsAcquired := by
  intro s a0 a8 a55 a1 a1' a2 a3 a9 rest i i' ocr ocr' w c c' cid csd hb h8 hcard ha8 h55 h1 hready h1' hready' h2 hcid
    h3 h9 hcsd
  have hcard : s.card = a0 :: a8 :: a55 :: a1 :: ([a1'] ++ a2 :: a3 :: a9 :: rest) := hcard
  obtain ⟨t, l, hs, hx, rfl, hc⟩ := leads_readyMmc (s := acqStart s) rfl rfl h8 hcard ha8 h55 h1 hready
  obtain ⟨u, l', hs', hc', hx'⟩ := leads_identified (b := .mmc) hs (by rw [hx]; rfl) hc rfl
    ⟨i', c', by rw [answerAt, hc]; exact h1'⟩ hready' h2 hcid h3 h9 hcsd
  obtain ⟨v, hexec, hresult, hdone, hacq, hcv, hxv, hm⟩ := (l.trans l').acquired (by decide) hb hs' hx'
  refine ⟨v, hexec, hresult, hdone, hacq, hxv.acquired, hxv.sd, hxv.rca, hxv.cid, hxv.csd, hcv.trans hc', ?_⟩
  have hcfg : t.cfg = s.cfg := l.moved.cfg
  have hask : rcaAsked .mmc = 0x00010000#32 := by decide
  have harg : rcaArg (rcaGiven w .mmc) = 0x00010000#32 := hask
  have hcond : Config.ifCondArg = 0x000001AA#32 := rfl
  rw [hm.wire, hcfg, hask, harg, hcond]
  simp only [opCondSent, List.cons_append, List.nil_append]

end Sys2Proof.Proofs

/-! SUPPORT. OPEN, SEEK and READ at their entry, and the copy of a READ: what lies outside the domain, what returns at
once, and what a READ inside the cached window does. -/

namespace Sys2Proof.Proofs

open Sys2Proof.Machine Sys2Proof.Laws

/-! ### The domain of the host operations (R73, R273) -/

section domain
variable {s t : State} {d : Desc} {bufSize length pos : Word} {i : Instr} {count : Nat} {st : Status}

/-- A well-formed descriptor in the naturals (R36). -/
theorem descWf_iff : descWf d = true ↔
    d.start.toNat + d.length.toNat ≤ 2 ^ 32 ∧ d.cursor.toNat ≤ d.length.toNat := by
  simp only [descWf, Bool.and_eq_true, decide_eq_true_eq]

/-- The host operations that take a descriptor, with that descriptor (R121). -/
def descOf : Instr → Option Desc
  | .openDesc d | .read d _ _ | .seek d _ => some d
  | _ => none

theorem exec_busy (hi : descOf i = some d) (hb : s.between = false) : exec i s = .refused .operationInProgress := by
  cases i <;> cases hi
  · simp [exec, execOpen, hb]
  · simp [exec, execRead, hb]
  · simp [exec, execSeek, hb]

theorem exec_malformed (hi : descOf i = some d) (hb : s.between = true) (hd : descWf d = false) :
    exec i s = .refused .malformedDescriptor := by
  cases i <;> cases hi
  · simp [exec, execOpen, hb, hd]
  · simp [exec, execRead, hb, hd]
  · simp [exec, execSeek, hb, hd]

theorem exec_open (hb : s.between = true) (hd : descWf d = true) :
    exec (.openDesc d) s =
      .next { s with result := .status (if s.session.acquired then .ok else .genericFailure) } := by
  simp [exec, execOpen, hb, hd]

theorem exec_seek (hb : s.between = true) (hd : descWf d = true) :
    exec (.seek d pos) s =
      .next { s with result := .cursor (seekCursor d pos), desc := { d with cursor := seekCursor d pos } } := by
  simp [exec, execSeek, hb, hd]

theorem toNat_seekCursor : (seekCursor d pos).toNat = min pos.toNat d.length.toNat := by
  unfold seekCursor
  split <;> omega

/-! READ at its entry (R261). -/

theorem exec_read_short (hb : s.between = true) (hd : descWf d = true) (hl : bufSize.toNat < length.toNat) :
    exec (.read d bufSize length) s = .refused .shortBuffer := by
  simp [exec, execRead, hb, hd, Nat.not_le.mpr hl]

theorem exec_read_unacquired (hb : s.between = true) (hd : descWf d = true) (hl : length.toNat ≤ bufSize.toNat)
    (ha : s.session.acquired = false) :
    exec (.read d bufSize length) s = .next (readEnd d 0 .genericFailure s) := by
  simp [exec, execRead, hb, hd, hl, ha]

theorem exec_read_of_turns (hb : s.between = true) (hd : descWf d = true) (hl : length.toNat ≤ bufSize.toNat)
    (ha : s.session.acquired = true)
    (hx : readTurns d (clip d length) (clip d length) 0 s = .ok ((count, st), t)) :
    exec (.read d bufSize length) s = .next (readEnd d count st t) := by
  simp [exec, execRead, hb, hd, hl, ha, hx]

/-- How a completed READ came about. -/
theorem exec_read_cases (h : exec (.read d bufSize length) s = .next t) :
    s.between = true ∧ descWf d = true ∧
    ((s.session.acquired = false ∧ t = readEnd d 0 .genericFailure s) ∨
     (s.session.acquired = true ∧ ∃ count st u,
       readTurns d (clip d length) (clip d length) 0 s = .ok ((count, st), u) ∧ t = readEnd d count st u)) := by
  change execRead d bufSize length s = .next t at h
  unfold execRead at h
  split_ifs at h with hb hd hl ha
  · refine ⟨hb, hd, .inr ⟨ha, ?_⟩⟩
    split at h
    · cases h
    · next count st u hx =>
      cases h
      exact ⟨count, st, u, hx, rfl⟩
  · cases h
    exact ⟨hb, hd, .inl ⟨by simpa using ha, rfl⟩⟩

/-- With nothing copied the cursor stays. -/
theorem readEnd_zero : readEnd d 0 st s = { s with result := .read 0 st d.cursor, desc := d } := by
  simp [readEnd]

theorem rfState_of_between (h : s.between = true) : s.rfState = .idle :=
  of_decide_eq_true (Bool.and_eq_true_iff.mp h).2

end domain

/-- Settles O43: OPEN tests `acquired` on a well-formed descriptor and is refused on any other. -/
theorem openTestsForACard : Obligations.OpenTestsForACard := by
  intro s d hb
  simp only [← descWf_iff, Bool.not_eq_true]
  exact ⟨exec_open hb, exec_malformed rfl hb⟩

/-- Settles O44: the new cursor is `seekCursor`, the smaller of position and length. -/
theorem seekClampsToTheExtent : Obligations.SeekClampsToTheExtent := by
  intro s d pos hb
  simp only [← descWf_iff, Bool.not_eq_true]
  exact ⟨fun hd => ⟨seekCursor d pos, toNat_seekCursor, exec_seek hb hd⟩, exec_malformed rfl hb⟩

/-- Settles O45, by the refusals the three operations share and READ's own. -/
theorem hostOperationsAreRefusedOutsideTheirDomain : Obligations.HostOperationsAreRefusedOutsideTheirDomain := by
  intro s d bufSize length pos
  refine ⟨fun hb => ⟨exec_busy rfl hb, exec_busy rfl hb, exec_busy rfl hb⟩, fun hb hd => ?_, fun hb hstart hcur hl =>
    exec_read_short hb (descWf_iff.mpr ⟨hstart, hcur⟩) hl⟩
  rw [← descWf_iff, Bool.not_eq_true] at hd
  exact ⟨exec_malformed rfl hb hd, exec_malformed rfl hb hd, exec_malformed rfl hb hd⟩

/-- Settles O46: without a card READ ends at its entry, and with a clipped length of 0 the loop has no turn. -/
theorem readOfNothingReturnsAtOnce : Obligations.ReadOfNothingReturnsAtOnce := by
  intro s d bufSize length hb hd hl
  refine ⟨fun ha => ?_, fun ha hnothing => ?_⟩
  · rw [exec_read_unacquired hb hd hl ha, readEnd_zero]
  · have hclip : clip d length = 0 := by
      obtain rfl | hend := hnothing
      · simp [clip]
      · simp [clip, hend]
    rw [exec_read_of_turns (count := 0) (st := .ok) (t := s) hb hd hl ha (by rw [hclip]; rfl), readEnd_zero]

/-! ### The addresses of a READ (R61, R262, R263) -/

section addresses
variable {s t : State} {d : Desc} {length a : Word} {n done k x turns : Nat} {base : Word}

theorem clip_lt (d : Desc) (length : Word) : clip d length < 2 ^ 32 :=
  (Nat.min_le_left _ _).trans_lt length.isLt

/-- The positions of a clipped READ have addresses below `2^32`, which do not wrap (R61). -/
theorem toNat_cardAddr (hd : descWf d = true) (h : x < clip d length) :
    (cardAddr d x).toNat = d.start.toNat + d.cursor.toNat + x := by
  obtain ⟨hend, hcur⟩ := descWf_iff.mp hd
  have hx : x < d.length.toNat - d.cursor.toNat := h.trans_le (Nat.min_le_right _ _)
  rw [cardAddr, BitVec.toNat_ofNat]
  omega

/-- The block base and the offset make up the address (R67). -/
theorem toNat_blockBase_add (a : Word) : (blockBase a).toNat + blockOff a = a.toNat :=
  (windowHoldsExactlyItsBlock.1 a).1

theorem blockOff_lt (a : Word) : blockOff a < 512 := (windowHoldsExactlyItsBlock.1 a).2.1

/-- An aligned window holds the addresses of its block (R66). -/
theorem inWindow_iff_blockBase (h : base &&& 0x1FF#32 = 0#32) : inWindow base a = true ↔ blockBase a = base :=
  windowHoldsExactlyItsBlock.2.2 base a h

theorem inWindow_blockBase (a : Word) : inWindow (blockBase a) a = true :=
  (inWindow_iff_blockBase (blockBase_aligned a)).mpr rfl

/-- What is in the window of a coherent cache is in the block of its base. -/
theorem blockBase_of_inWindow (hs : cacheAligned s = true) (h : inWindow s.cache.base a = true) :
    blockBase a = s.cache.base := by
  rw [cacheAligned, Bool.or_eq_true, decide_eq_true_eq, decide_eq_true_eq] at hs
  obtain hempty | halign := hs
  · rw [hempty, windowHoldsExactlyItsBlock.2.1] at h
    cases h
  · exact (inWindow_iff_blockBase halign).mp h

/-! The copy (R263). -/

/-- One turn copies at least one byte, within the block and within what is left. -/
theorem copyLen_bounds (h : done < n) : 1 ≤ copyLen a (n - done) ∧ done + copyLen a (n - done) ≤ n ∧
    blockOff a + copyLen a (n - done) ≤ 512 := by
  have := blockOff_lt a
  simp only [copyLen, Config.workBlock]
  omega

theorem length_cacheSlice (b : Block) {off : Nat} (h : off + k ≤ 512) : (cacheSlice b off k).length = k := by
  rw [cacheSlice, List.length_take, List.length_drop, b.size]
  omega

/-- A byte of the caller's buffer after the copy: from the cache in the range copied, as before elsewhere. -/
theorem get_copyOut (hwf : Memory.wf s.caller = true) (h : blockOff a + k ≤ 512) (x : Nat) :
    Memory.get (copyOut a done k s).caller x =
      if done ≤ x ∧ x < done + k then s.cache.buf.toList.getD (blockOff a + (x - done)) 0
      else Memory.get s.caller x := by
  show Memory.get (s.caller.setAll done (cacheSlice s.cache.buf (blockOff a) k)) x = _
  rw [memory_get_setAll _ _ _ hwf, length_cacheSlice _ h]
  split_ifs with hx
  · have hk : x - done < k := by omega
    simp [cacheSlice, List.getD, List.getElem?_drop, hk]
  · rfl

/-! The turns of the loop (R262). -/

theorem readTurns_zero : readTurns d n turns n s = .ok ((n, .ok), s) := by
  cases turns <;> simp [readTurns]

theorem readTurns_succ (h : done < n) (hx : ensureWindow (cardAddr d done) s = .ok (.ok, t)) :
    readTurns d n (turns + 1) done s =
      readTurns d n turns (done + copyLen (cardAddr d done) (n - done))
        (copyOut (cardAddr d done) done (copyLen (cardAddr d done) (n - done)) t) := by
  simp [readTurns, h, hx]

/-- A READ within one block is one turn. -/
theorem readTurns_one (h : 0 < n) (hblock : blockOff (cardAddr d 0) + n ≤ 512)
    (hx : ensureWindow (cardAddr d 0) s = .ok (.ok, t)) :
    readTurns d n n 0 s = .ok ((n, .ok), copyOut (cardAddr d 0) 0 n t) := by
  have hlen : copyLen (cardAddr d 0) (n - 0) = n := by
    simp only [copyLen, Config.workBlock]
    omega
  obtain ⟨m, rfl⟩ := Nat.exists_eq_add_of_lt h
  rw [readTurns_succ h hx, hlen, Nat.zero_add, Nat.zero_add, readTurns_zero]

end addresses

/-- Settles O47: the range lies in one block, the cached one, so the loop has at most one turn, which refills nothing
(R270). -/
theorem readInsideTheWindowUsesTheCache : Obligations.ReadInsideTheWindowUsesTheCache := by
  intro s d bufSize length hb hd hl ha halign hwf hwindow
  obtain ⟨u, hx, hu, hget⟩ : ∃ u, readTurns d (clip d length) (clip d length) 0 s = .ok ((clip d length, .ok), u) ∧
      u = { s with caller := u.caller } ∧ ∀ x, Memory.get u.caller x =
        if x < clip d length then s.cache.buf.toList.getD (blockOff (cardAddr d 0) + x) 0
        else Memory.get s.caller x := by
    rcases Nat.eq_zero_or_pos (clip d length) with h0 | hpos
    · exact ⟨s, by rw [h0]; rfl, rfl, by simp [h0]⟩
    have hblock : blockOff (cardAddr d 0) + clip d length ≤ 512 := by
      have hfirst := blockBase_of_inWindow halign (hwindow 0 hpos)
      have hlast := blockBase_of_inWindow halign (hwindow (clip d length - 1) (by omega))
      have h0 := toNat_blockBase_add (cardAddr d 0)
      have h1 := toNat_blockBase_add (cardAddr d (clip d length - 1))
      have hoff := blockOff_lt (cardAddr d (clip d length - 1))
      rw [hfirst, toNat_cardAddr hd hpos] at h0
      rw [hlast, toNat_cardAddr hd (Nat.sub_lt hpos Nat.one_pos)] at h1
      omega
    refine ⟨_, readTurns_one hpos hblock (by rw [ensureWindow, if_pos (hwindow 0 hpos)]), rfl, fun x => ?_⟩
    rw [get_copyOut hwf hblock]
    simp
  refine ⟨_, exec_read_of_turns hb hd hl ha hx, rfl, ?_, rfl, hget⟩
  rw [readEnd, hu]

end Sys2Proof.Proofs

/-! SUPPORT. The refill: the part of a READ that has run, how the card's answers judge the frames of the refill, and
what a completed refill leaves. -/

namespace Sys2Proof.Proofs

open Sys2Proof.Machine Sys2Proof.Laws

/-! ### A part of a READ -/

/-- The fields that no refill writes (R274). -/
def untouchedByRefill (s : State) :
    (Session × AcqState × AcqResult × Config × List Byte × Memory) × Nat × Word × Word × Nat × Bool × Bool :=
  ((s.session, s.acqState, s.acqResult, s.cfg, s.port, s.caller),
    s.tries, s.ocr, s.negArg, s.negT0, s.sdTimedOut, s.mmcTimedOut)

/-- A part of a READ has run: these frames went out and as many answers were taken. If there were any, the operating
clock runs and the flags are 0 (R191, R200); if there were none, the registers of the transport are as before. -/
structure ReadPart (s t : State) (fs : List Frame) : Prop where
  same    : untouchedByRefill t = untouchedByRefill s
  wire    : framesOf t.trace = framesOf s.trace ++ fs
  card    : t.card = s.card.drop fs.length
  time    : s.nowMs ≤ t.nowMs
  clkRun  : s.cfg.realization ≠ .bitPulse → t.clkRun = s.clkRun
  busWide : t.busWide = s.busWide ∨ (t.busWide = true ∧ s.session.sd = true ∧ s.cfg.hostWide = true)
  unsent  : fs = [] → t.rb = s.rb ∧ t.clkSel = s.clkSel ∧ t.st = s.st ∧ t.busWide = s.busWide
  sent    : fs ≠ [] → t.clkSel = .oper ∧ t.st = Flags.clear

section part
variable {s t u : State} {fs gs : List Frame} {c : Cmd} {a : Word} {st : Status} {k : Option FailKind} {n : Nat}
  {rsp : Rsp} {r : Result}

theorem ReadPart.session (h : ReadPart s t fs) : t.session = s.session := congrArg (·.1.1) h.same

theorem ReadPart.cfg (h : ReadPart s t fs) : t.cfg = s.cfg := congrArg (·.1.2.2.2.1) h.same

theorem ReadPart.caller (h : ReadPart s t fs) : t.caller = s.caller := congrArg (·.1.2.2.2.2.2) h.same

theorem ReadPart.answerAt (h : ReadPart s t fs) (j : Nat) : answerAt t j = answerAt s (fs.length + j) := by
  rw [Machine.answerAt, Machine.answerAt, h.card, List.drop_drop]

theorem ReadPart.trans (h : ReadPart s t fs) (k : ReadPart t u gs) : ReadPart s u (fs ++ gs) where
  same := k.same.trans h.same
  wire := by rw [k.wire, h.wire, List.append_assoc]
  card := by rw [k.card, h.card, List.drop_drop, List.length_append]
  time := h.time.trans k.time
  clkRun hr := (k.clkRun (h.cfg ▸ hr)).trans (h.clkRun hr)
  busWide := by
    rcases k.busWide with hk | ⟨hw, hsd, hhost⟩
    · rw [hk]
      exact h.busWide
    · exact .inr ⟨hw, h.session ▸ hsd, h.cfg ▸ hhost⟩
  unsent hnil := by
    obtain ⟨hf, hg⟩ := List.append_eq_nil_iff.mp hnil
    obtain ⟨h1, h2, h3, h4⟩ := h.unsent hf
    obtain ⟨k1, k2, k3, k4⟩ := k.unsent hg
    exact ⟨k1.trans h1, k2.trans h2, k3.trans h3, k4.trans h4⟩
  sent hne := by
    by_cases hg : gs = []
    · obtain ⟨-, hclk, hst, -⟩ := k.unsent hg
      rw [hclk, hst]
      exact h.sent (by simpa [hg] using hne)
    · exact k.sent hg

/-- The writes of the refill's own, the cache and `rf_state`, are no part of it. -/
theorem readPart_write (y : Cache) (r : RfState) (s : State) : ReadPart s { s with cache := y, rfState := r } [] :=
  ⟨rfl, (List.append_nil _).symm, rfl, le_rfl, fun _ => rfl, .inl rfl, fun _ => ⟨rfl, rfl, rfl, rfl⟩,
    fun h => absurd rfl h⟩

/-- The bus becomes wide after the bus-width pair (R266). -/
theorem ReadPart.widen (h : ReadPart s t fs) (hfs : fs ≠ []) (hsd : s.session.sd = true)
    (hw : s.cfg.hostWide = true) : ReadPart s { t with busWide := true } fs :=
  ⟨h.same, h.wire, h.card, h.time, h.clkRun, .inr ⟨rfl, hsd, hw⟩, fun hnil => absurd hnil hfs, h.sent⟩

/-- The caller's buffer has no part in it. -/
theorem ReadPart.withCaller (h : ReadPart s t fs) (m : Memory) :
    ReadPart { s with caller := m } { t with caller := m } fs := by
  refine ⟨?_, h.wire, h.card, h.time, h.clkRun, h.busWide, h.unsent, h.sent⟩
  have hsame := h.same
  simp only [untouchedByRefill, Prod.mk.injEq, and_true] at hsame ⊢
  tauto

/-- A command at the operating clock is such a part (R191, R202). -/
theorem readPart_of_done (h : CommandDone s { t with result := r } fs false st) (hfs : fs ≠ []) :
    ReadPart s t fs := by
  obtain ⟨f, hwire, hcard, hflags, hrun, hclock, htime, -⟩ := h
  obtain ⟨h1, h2, h3, h4, h5, h6, h7, h8, h9, -, hbus, h11, -, h13, h14⟩ := f
  refine ⟨?_, hwire, hcard, htime, fun hr => hrun.trans (if_neg hr), .inl hbus, fun hnil => absurd hnil hfs,
    fun _ => ⟨hclock, hflags⟩⟩
  simp only [untouchedByRefill, Prod.mk.injEq]
  exact ⟨⟨h1, h2, h3, h11, h14, h13⟩, h4, h5, h6, h7, h8, h9⟩

end part

/-! ### What an answer says of its frame (R110, R198, R292, R296) -/

section answers
variable {index : BitVec 6} {ans : Answer} {payload : Word} {fmt : RspFormat} {busy : Bool} {bytes bytes' : Block}
  {data : DataAns} {idx : BitVec 6} {crc : BitVec 7}

theorem delivers_injective (h : data.delivers bytes) (h' : data.delivers bytes') : bytes = bytes' := by
  obtain rfl | ⟨c3, c2, c1, c0, rfl, -⟩ := h <;> obtain h' | ⟨_, _, _, _, h', -⟩ := h' <;> cases h' <;> rfl

theorem exists_delivers (hne : data ≠ .noData) (h : data.crcGood = true) : ∃ bytes, data.delivers bytes := by
  cases data with
  | noData => exact absurd rfl hne
  | data bytes c => exact ⟨bytes, .inl (of_decide_eq_true h ▸ rfl)⟩
  | data4 bytes c3 c2 c1 c0 => exact ⟨bytes, .inr ⟨c3, c2, c1, c0, rfl, of_decide_eq_true h⟩⟩

theorem answerStatus_silent (h : ans.rsp = .noResponse) : answerStatus index ans = .timeout := by
  simp [answerStatus, h]

theorem answerStatus_misfit {content : Reg128} (h : ans.rsp = .rsp136 content) :
    answerStatus index ans = .genericFailure := by
  simp [answerStatus, h]

theorem answerStatus_wrongCrc (h : ans.rsp = .rsp48 idx payload crc) (hcrc : crc ≠ rspCrc idx payload) :
    answerStatus index ans = .crcError := by
  simp [answerStatus, h, hcrc]

theorem answerStatus_wrongIndex (h : ans.rsp = .rsp48 idx payload crc) (hcrc : crc = rspCrc idx payload)
    (hidx : idx ≠ index) : answerStatus index ans = .commandError := by
  simp [answerStatus, h, hcrc, hidx]

theorem answerStatus_held (h : ans.rsp = goodRsp index payload) (h7 : index = 7#6)
    (hheld : ans.busyReleased = false) : answerStatus index ans = .timeout := by
  simp [answerStatus, h, goodRsp, h7, hheld]

theorem answerStatus_good (h : ans.rsp = goodRsp index payload) (h7 : index = 7#6 → ans.busyReleased = true)
    (h17 : index ≠ 17#6) : answerStatus index ans = .ok := by
  simpa [answerStatus, h, goodRsp, h17] using h7

/-- After a good response to CMD17 the data part decides (R198). -/
theorem answerStatus_read (h : ans.rsp = goodRsp 17#6 payload) :
    answerStatus 17#6 ans =
      if ans.data = .noData then .timeout else if ans.data.crcGood then .ok else .crcError := by
  cases hd : ans.data <;> simp [answerStatus, h, goodRsp, hd, DataAns.crcGood]

theorem answerStatus_delivers (h : ans.rsp = goodRsp 17#6 payload) (hd : ans.data.delivers bytes) :
    answerStatus 17#6 ans = .ok := by
  have hne : ans.data ≠ .noData := by
    rintro hnone
    rw [hnone] at hd
    obtain hd | ⟨_, _, _, _, hd, -⟩ := hd <;> cases hd
  rw [answerStatus_read h, if_neg hne, if_pos (crcGood_of_delivers hd)]

/-- The transport's verdict on an answer of the right length is the status that the answer gives, but for a
READ_SINGLE_BLOCK whose data is still to come. -/
theorem verdict_of_answer (hf : fmt.checksIndex = true) (hbusy : busy = true ↔ index = 7#6)
    (h136 : ∀ content, ans.rsp ≠ .rsp136 content) :
    ∃ k n, Verdict index fmt busy ans k n ∧ (k = none → ∃ w, ans.rsp = goodRsp index w) ∧
      (k ≠ none ∨ index ≠ 17#6 → statusOf k = answerStatus index ans) := by
  have hfmt : fmt ≠ .none := (checked_format hf).2.2.1
  cases hr : ans.rsp with
  | noResponse => exact ⟨_, _, .silent hfmt hr, nofun, fun _ => (answerStatus_silent hr).symm⟩
  | rsp136 content => exact absurd hr (h136 content)
  | rsp48 idx payload crc =>
    by_cases hcrc : crc = rspCrc idx payload
    case neg => exact ⟨_, _, .wrongCrc hf hr hcrc, nofun, fun _ => (answerStatus_wrongCrc hr hcrc).symm⟩
    by_cases hidx : idx = index
    case neg => exact ⟨_, _, .wrongIndex hf hr hcrc hidx, nofun, fun _ => (answerStatus_wrongIndex hr hcrc hidx).symm⟩
    subst hcrc hidx
    by_cases hheld : idx = 7#6 ∧ ans.busyReleased = false
    · obtain ⟨h7, hheld⟩ := hheld
      exact ⟨_, _, .unreleased hf hr (hbusy.mpr h7) hheld, nofun, fun _ => (answerStatus_held hr h7 hheld).symm⟩
    · have hreleased : idx = 7#6 → ans.busyReleased = true := by simpa using hheld
      refine ⟨_, _, .accepted hf hr (hreleased ∘ hbusy.mp), fun _ => ⟨payload, rfl⟩, fun hk => ?_⟩
      exact (answerStatus_good hr hreleased (by simpa using hk)).symm

end answers

/-! ### The frames of a refill against their answers -/

/-- Every one of these frames was answered well, the `k`-th by the `k`-th answer. -/
def GoodFrames (ans : Nat → Answer) (fs : List Frame) : Prop :=
  ∀ k g, fs[k]? = some g → answerStatus (frameIndex g) (ans k) = .ok

/-- Of the frames that were to go out those before the first bad answer did, and with it its own; the status is that of
the bad answer, and `Ok` if there was none (R276, R300). -/
inductive Judged (ans : Nat → Answer) (sends : List Frame) : Status → List Frame → Prop where
  | all (h : GoodFrames ans sends) : Judged ans sends .ok sends
  | stopped {before after : List Frame} {f : Frame} {st : Status} (hs : sends = before ++ f :: after)
      (h : GoodFrames ans before) (hst : answerStatus (frameIndex f) (ans before.length) = st) (hne : st ≠ .ok) :
      Judged ans sends st (before ++ [f])

section judged
variable {ans : Nat → Answer} {fs gs sent sent' : List Frame} {f : Frame} {st : Status}

theorem goodFrames_nil : GoodFrames ans [] := nofun

theorem goodFrames_cons : GoodFrames ans (f :: fs) ↔
    answerStatus (frameIndex f) (ans 0) = .ok ∧ GoodFrames (fun k => ans (k + 1)) fs := by
  constructor
  · exact fun h => ⟨h 0 f rfl, fun k g hg => h (k + 1) g hg⟩
  · rintro ⟨h0, h⟩ (_ | k) g hg
    · cases hg
      exact h0
    · exact h k g hg

theorem goodFrames_append : GoodFrames ans (fs ++ gs) ↔
    GoodFrames ans fs ∧ GoodFrames (fun k => ans (fs.length + k)) gs := by
  induction fs generalizing ans with
  | nil => simp [goodFrames_nil]
  | cons f fs ih =>
    simp only [List.cons_append, goodFrames_cons, ih, List.length_cons, and_assoc, Nat.add_right_comm _ 1]

theorem judged_one (h : answerStatus (frameIndex f) (ans 0) = st) : Judged ans [f] st [f] := by
  by_cases hst : st = .ok
  · subst hst
    exact .all (goodFrames_cons.mpr ⟨h, goodFrames_nil⟩)
  · exact .stopped (before := []) rfl goodFrames_nil h hst

theorem Judged.of_ok (h : Judged ans fs .ok sent) : sent = fs ∧ GoodFrames ans fs := by
  cases h with
  | all h => exact ⟨rfl, h⟩
  | stopped _ _ _ hne => exact absurd rfl hne

theorem Judged.append (h : GoodFrames ans fs) (k : Judged (fun j => ans (fs.length + j)) gs st sent) :
    Judged ans (fs ++ gs) st (fs ++ sent) := by
  cases k with
  | all k => exact .all (goodFrames_append.mpr ⟨h, k⟩)
  | @stopped before after f _ hs k hst hne =>
    rw [← List.append_assoc]
    refine .stopped (after := after) (by rw [hs, List.append_assoc]) (goodFrames_append.mpr ⟨h, k⟩) ?_ hne
    rwa [List.length_append]

theorem Judged.stop (h : Judged ans fs st sent) (hne : st ≠ .ok) (gs : List Frame) :
    Judged ans (fs ++ gs) st sent := by
  cases h with
  | all => exact absurd rfl hne
  | @stopped before after f _ hs h hst =>
    exact .stopped (after := after ++ gs) (by rw [hs, List.append_assoc, List.cons_append]) h hst hne

end judged

end Sys2Proof.Proofs

/-! SUPPORT. The refill step by step: each step against the answers to its frames, the steps in a row, and what a
completed refill leaves. -/

namespace Sys2Proof.Proofs

open Sys2Proof.Machine Sys2Proof.Laws

/-! ### A step of the refill -/

/-- Frames of a refill have gone out as far as their answers were good, with the status of the last answer. -/
structure RefillRan (s t : State) (sends : List Frame) (st : Status) : Prop where
  part : ∃ sent, ReadPart s t sent ∧ Judged (answerAt s) sends st sent
  kind : ∃ k, st = statusOf k

/-- A step of a refill, or some in a row, from `s`: what it does if it completes, and that it completes well if every
frame is answered well and the data frame, if it takes one, fits the bus. After a failure the cache has the base it
had, and after `Ok` the state has the property `Q`. -/
structure RefillStep (s : State) (sends : List Frame) (fit : Prop) (Q : State → Prop) (r : Res Status) : Prop where
  ran    : ∀ {st t}, r = .ok (st, t) → RefillRan s t sends st
  failed : ∀ {st t}, r = .ok (st, t) → st ≠ .ok → t.cache.base = s.cache.base
  done   : ∀ {t}, r = .ok (.ok, t) → Q t
  good   : fit → GoodFrames (answerAt s) sends → ∃ t, r = .ok (.ok, t)

section step
variable {s t u : State} {fs gs sends : List Frame} {st : Status} {fit fit' : Prop} {P Q : State → Prop}
  {r : Res Status} {next : State → Res Status} {c : Cmd} {a b w : Word} {rf : RfState} {k : Option FailKind} {n : Nat}

theorem RefillRan.of_ok (h : RefillRan s t fs .ok) : ReadPart s t fs ∧ GoodFrames (answerAt s) fs := by
  obtain ⟨⟨sent, hpart, hjudged⟩, -⟩ := h
  obtain ⟨rfl, hgood⟩ := hjudged.of_ok
  exact ⟨hpart, hgood⟩

theorem RefillRan.append (h : RefillRan s t fs .ok) (k : RefillRan t u gs st) : RefillRan s u (fs ++ gs) st := by
  obtain ⟨hpart, hgood⟩ := h.of_ok
  obtain ⟨⟨sent, kpart, kjudged⟩, hkind⟩ := k
  rw [funext hpart.answerAt] at kjudged
  exact ⟨⟨_, hpart.trans kpart, kjudged.append hgood⟩, hkind⟩

theorem RefillRan.stop (h : RefillRan s t fs st) (hne : st ≠ .ok) (gs : List Frame) :
    RefillRan s { t with rfState := .idle } (fs ++ gs) st := by
  obtain ⟨⟨sent, hpart, hjudged⟩, hkind⟩ := h
  exact ⟨⟨sent, by simpa using hpart.trans (readPart_write t.cache .idle t), hjudged.stop hne gs⟩, hkind⟩

theorem refillRan_nil (h : ReadPart s t []) : RefillRan s t [] .ok := ⟨⟨[], h, .all goodFrames_nil⟩, none, rfl⟩

/-- Two steps in a row: the second runs if the first ends well (R264, R269). -/
theorem RefillStep.andThen (h : RefillStep s fs fit P r) (hbase : ∀ {t}, P t → t.cache.base = s.cache.base)
    (hnext : ∀ {t}, ReadPart s t fs → P t → RefillStep t gs fit Q (next t)) :
    RefillStep s (fs ++ gs) fit Q (refillThen r next) where
  ran hx := by
    obtain ⟨st', u, hr, ⟨rfl, hk⟩ | ⟨hne, rfl, rfl⟩⟩ := refillThen_cases hx
    · have hu := h.ran hr
      exact hu.append ((hnext hu.of_ok.1 (h.done hr)).ran hk)
    · exact (h.ran hr).stop hne gs
  failed hx hne := by
    obtain ⟨st', u, hr, ⟨rfl, hk⟩ | ⟨-, rfl, rfl⟩⟩ := refillThen_cases hx
    · have hu := h.done hr
      exact ((hnext (h.ran hr).of_ok.1 hu).failed hk hne).trans (hbase hu)
    · show u.cache.base = _
      exact h.failed hr hne
  done hx := by
    obtain ⟨st', u, hr, ⟨rfl, hk⟩ | ⟨hne, rfl, -⟩⟩ := refillThen_cases hx
    · exact (hnext (h.ran hr).of_ok.1 (h.done hr)).done hk
    · exact absurd rfl hne
  good hfit hgood := by
    obtain ⟨hfs, hgs⟩ := goodFrames_append.mp hgood
    obtain ⟨u, hr⟩ := h.good hfit hfs
    have hu := (h.ran hr).of_ok.1
    obtain ⟨t, hk⟩ := (hnext hu (h.done hr)).good hfit (by rwa [funext hu.answerAt])
    exact ⟨t, by simp [refillThen, hr, hk]⟩

/-- Entering a step sets `rf_state` only. -/
theorem RefillStep.enter (h : RefillStep { s with rfState := rf } sends fit Q r) : RefillStep s sends fit Q r where
  ran hx := by
    obtain ⟨⟨sent, hpart, hjudged⟩, hkind⟩ := h.ran hx
    exact ⟨⟨sent, (readPart_write s.cache rf s).trans hpart, hjudged⟩, hkind⟩
  failed := h.failed
  done := h.done
  good := h.good

theorem RefillStep.mono (h : RefillStep s sends fit P r) (hfit : fit' → fit) (hP : ∀ t, P t → Q t) :
    RefillStep s sends fit' Q r :=
  ⟨h.ran, h.failed, fun hx => hP _ (h.done hx), fun hf => h.good (hfit hf)⟩

/-! ### The commands of the refill -/

/-- A command of the refill that is one exchange with a checked response (R101). -/
structure CheckedRow (c : Cmd) : Prop where
  ls    : c.descriptor.ls = false
  acmd  : c.descriptor.acmd = false
  index : c.descriptor.rsp.checksIndex = true
  busy  : c.descriptor.busy = true ↔ c.descriptor.index = 7#6

/-- What an ended command says of itself as a part of a READ. -/
theorem readPart_of_ended {rsp : Rsp} (hls : c.descriptor.ls = false) (hfs : fs ≠ [])
    (e : Ended c s fs k n rsp { t with result := .status (statusOf k) }) : ReadPart s t fs :=
  readPart_of_done (hls ▸ e.done) hfs

theorem readPart_of_executeCmd (hls : c.descriptor.ls = false) (hacmd : c.descriptor.acmd = false)
    (h : executeCmd c a s = .ok (st, t)) : ReadPart s t [cmdFrame c.descriptor.index a] := by
  have e := executed_of_executeCmd h
  obtain ⟨fs, hwire, hcard, hfs⟩ := e.wire
  obtain rfl : fs = [cmdFrame c.descriptor.index a] := by simpa [hacmd] using hfs
  refine readPart_of_done (r := .status st) (st := st) ?_ (by simp)
  exact
    { frame := e.frame.trans (by constructor <;> rfl)
      wire := hwire
      card := hcard
      flags := e.flags
      clkRun := e.clkRun
      clock := hls ▸ e.clock
      time := e.time
      status := rfl }

theorem index_ne_read (h : c.descriptor.data = false) : c.descriptor.index ≠ 17#6 := by
  revert h
  cases c <;> decide

/-- The status of a command that is one exchange, when its answer alone decides it. -/
theorem executeCmd_of_answer (hc : CheckedRow c) (h136 : ∀ content, (answerAt s 0).rsp ≠ .rsp136 content)
    (h : c.descriptor.data = false ∨ ∀ w, (answerAt s 0).rsp ≠ goodRsp c.descriptor.index w) :
    ∃ t, executeCmd c a s = .ok (answerStatus c.descriptor.index (answerAt s 0), t) := by
  obtain ⟨k, n, v, hgood, hst⟩ := verdict_of_answer (fmt := c.descriptor.rsp) hc.index hc.busy h136
  have hdata : k = none → c.descriptor.data = false := fun hk => h.resolve_right fun hbad =>
    (hgood hk).elim fun w hw => hbad w hw
  obtain ⟨t, hx, -⟩ := executeCmd_of_verdict (a := a) (reaches_plain hc.acmd) v hdata
  refine ⟨t, ?_⟩
  rw [hx, hst]
  by_cases hk : k = none
  · exact .inr (index_ne_read (hdata hk))
  · exact .inl hk

/-- An answer of the other length is no answer to a completed command. -/
theorem answer_fits (hc : CheckedRow c) (h : executeCmd c a s = .ok (st, t)) (content : Reg128) :
    (answerAt s 0).rsp ≠ .rsp136 content := by
  intro hr
  have hfit : (answerAt s 0).rsp.fits c.descriptor.rsp = false := by
    rw [hr]
    exact decide_eq_false (checked_format hc.index).2.2.2
  rw [executeCmd_misfit (reaches_plain hc.acmd) (checked_format hc.index).2.2.1 hfit] at h
  cases h

theorem ne_misfit_of_good {i : BitVec 6} {ans : Answer} (h : answerStatus i ans = .ok) (content : Reg128) :
    ans.rsp ≠ .rsp136 content := by
  intro hr
  rw [answerStatus_misfit hr] at h
  cases h

theorem goodRsp_of_answerStatus {i : BitVec 6} {ans : Answer} (h : answerStatus i ans = .ok) :
    ∃ w, ans.rsp = goodRsp i w := by
  obtain ⟨k, n, -, hgood, hst⟩ := verdict_of_answer (index := i) (fmt := .r1) (busy := decide (i = 7#6)) rfl
    decide_eq_true_iff (ne_misfit_of_good h)
  by_cases hk : k = none
  · exact hgood hk
  · exact absurd (eq_none_of_statusOf ((hst (.inl hk)).trans h)) hk

/-- The base of the cache and the width of the bus. -/
def HasCacheAndBus (base : Word) (wide : Bool) (t : State) : Prop := t.cache.base = base ∧ t.busWide = wide

theorem hasCacheAndBus_of_executeCmd (h : executeCmd c a s = .ok (st, t)) :
    HasCacheAndBus s.cache.base s.busWide t :=
  ⟨(executed_of_executeCmd h).base, (executed_of_executeCmd h).frame.busWide⟩

/-- A checked command without a data phase as a step (R265, R267). -/
theorem refillStep_checked (hc : CheckedRow c) (hd : c.descriptor.data = false) :
    RefillStep s [cmdFrame c.descriptor.index a] fit (HasCacheAndBus s.cache.base s.busWide) (executeCmd c a s) where
  ran {st t} hx := by
    obtain ⟨u, hu⟩ := executeCmd_of_answer (a := a) hc (answer_fits hc hx) (.inl hd)
    obtain ⟨rfl, rfl⟩ := Prod.mk.inj (Except.ok.inj (hx.symm.trans hu))
    exact ⟨⟨_, readPart_of_executeCmd hc.ls hc.acmd hx, judged_one (by rw [frameIndex_cmdFrame])⟩,
      kind_of_executeCmd hx⟩
  failed hx _ := (executed_of_executeCmd hx).base
  done hx := hasCacheAndBus_of_executeCmd hx
  good _ hgood := by
    have hok := (goodFrames_cons.mp hgood).1
    rw [frameIndex_cmdFrame] at hok
    obtain ⟨u, hu⟩ := executeCmd_of_answer (a := a) hc (ne_misfit_of_good hok) (.inl hd)
    exact ⟨u, hok ▸ hu⟩

/-! The bus-width pair (R266). -/

/-- SET_BUS_WIDTH whose APP_CMD is not answered well ends with that answer's status (R193). -/
theorem setBusWidth_fails (h136 : ∀ content, (answerAt s 0).rsp ≠ .rsp136 content)
    (hbad : answerStatus 55#6 (answerAt s 0) ≠ .ok) :
    ∃ t, executeCmd .setBusWidth a s = .ok (answerStatus 55#6 (answerAt s 0), t) ∧
      ReadPart s t [cmdFrame 55#6 (rcaArg s.session.rca)] := by
  obtain ⟨k, n, v, -, hst⟩ := verdict_of_answer (index := 55#6) (fmt := .r1) (busy := false) rfl (by decide) h136
  have hst := hst (.inr (by decide))
  obtain ⟨u, hx, hsent, htime⟩ := appCmd_of_verdict (c := .setBusWidth) (a := a) v
  cases k with
  | none => exact absurd hst.symm hbad
  | some e =>
    have run : executeCmd .setBusWidth a s = .ok (finish Cmd.setBusWidth.descriptor (some e) u) :=
      execute_prefix_fails rfl rfl rfl hx
    exact ⟨_, hst ▸ run, readPart_of_ended (rsp := .noResponse) rfl (by simp) (ended_of_finish run hsent htime nofun)⟩

/-- After a good answer to its APP_CMD it ends with the status of the answer to CMD6. -/
theorem setBusWidth_sends (h136 : ∀ content, (answerAt s 1).rsp ≠ .rsp136 content)
    (hgood : (answerAt s 0).rsp = goodRsp 55#6 w) :
    ∃ t, executeCmd .setBusWidth a s = .ok (answerStatus 6#6 (answerAt s 1), t) ∧
      ReadPart s t [cmdFrame 55#6 (rcaArg s.session.rca), cmdFrame 6#6 a] := by
  obtain ⟨k, n, v, -, hst⟩ := verdict_of_answer (index := 6#6) (fmt := .r1) (busy := false) rfl (by decide) h136
  obtain ⟨u, hr⟩ := reaches_prefixed (c := .setBusWidth) (a := a) rfl rfl hgood
  obtain ⟨t, hx, e⟩ := executeCmd_of_verdict hr v fun _ => rfl
  exact ⟨t, hst (.inr (by decide)) ▸ hx, readPart_of_ended rfl (by simp) e⟩

/-- The answers to a completed SET_BUS_WIDTH have the length of a response (R112). -/
theorem setBusWidth_answers (h : executeCmd .setBusWidth a s = .ok (st, t)) :
    (∀ content, (answerAt s 0).rsp ≠ .rsp136 content) ∧
    (answerStatus 55#6 (answerAt s 0) = .ok → ∀ content, (answerAt s 1).rsp ≠ .rsp136 content) := by
  refine ⟨fun content hr => ?_, fun hok content hr => ?_⟩
  · have hans : nextAnswer (clocked .setBusWidth a s) = answerAt s 0 := nextAnswer_of_sent (.refl _)
    have hx : exchange 55#6 (rcaArg s.session.rca) .r1 false (clocked .setBusWidth a s) = .error .answerLength :=
      exchange_misfit (by decide) (by simp [hans, hr]) (by simp [hans, hr, Rsp.fits])
    rw [executeCmd, execute_prefix_misfit rfl rfl rfl hx] at h
    cases h
  · obtain ⟨w, hgood⟩ := goodRsp_of_answerStatus hok
    obtain ⟨u, hreach⟩ := reaches_prefixed (c := .setBusWidth) (a := a) rfl rfl hgood
    have hfit : (answerAt s 1).rsp.fits Cmd.setBusWidth.descriptor.rsp = false := by
      rw [hr]
      rfl
    rw [executeCmd_misfit hreach nofun hfit] at h
    cases h

theorem refillStep_setBusWidth :
    RefillStep s [cmdFrame 55#6 (rcaArg s.session.rca), cmdFrame 6#6 a] fit
      (HasCacheAndBus s.cache.base s.busWide) (executeCmd .setBusWidth a s) where
  ran {st t} hx := by
    refine ⟨?_, kind_of_executeCmd hx⟩
    obtain ⟨h0, h1⟩ := setBusWidth_answers hx
    by_cases hok : answerStatus 55#6 (answerAt s 0) = .ok
    · obtain ⟨w, hgood⟩ := goodRsp_of_answerStatus hok
      obtain ⟨u, hu, hpart⟩ := setBusWidth_sends (a := a) (h1 hok) hgood
      obtain ⟨rfl, rfl⟩ := Prod.mk.inj (Except.ok.inj (hx.symm.trans hu))
      have hfirst : GoodFrames (answerAt s) [cmdFrame 55#6 (rcaArg s.session.rca)] :=
        goodFrames_cons.mpr ⟨by rwa [frameIndex_cmdFrame], goodFrames_nil⟩
      exact ⟨_, hpart, Judged.append hfirst (judged_one (by rw [frameIndex_cmdFrame]; rfl))⟩
    · obtain ⟨u, hu, hpart⟩ := setBusWidth_fails (a := a) h0 hok
      obtain ⟨rfl, rfl⟩ := Prod.mk.inj (Except.ok.inj (hx.symm.trans hu))
      exact ⟨_, hpart, (judged_one (by rw [frameIndex_cmdFrame])).stop hok [_]⟩
  failed hx _ := (executed_of_executeCmd hx).base
  done hx := hasCacheAndBus_of_executeCmd hx
  good _ hgood := by
    simp only [goodFrames_cons, frameIndex_cmdFrame] at hgood
    obtain ⟨h0, h1, -⟩ := hgood
    obtain ⟨w, hw⟩ := goodRsp_of_answerStatus h0
    obtain ⟨u, hu, -⟩ := setBusWidth_sends (a := a) (ne_misfit_of_good h1) hw
    exact ⟨u, h1 ▸ hu⟩

/-- An SD card on a wide host (R266). -/
def goesWide (s : State) : Bool := s.session.sd && s.cfg.hostWide

theorem refillBusWidth_cases (hw : goesWide s = true) (h : refillBusWidth s = .ok (st, t)) :
    ∃ u, executeCmd .setBusWidth Config.busWidthArg { s with rfState := .busWidth } = .ok (st, u) ∧
      t = if st = .ok then { u with busWide := true } else u := by
  unfold refillBusWidth at h
  rw [if_pos (show (s.session.sd && s.cfg.hostWide) = true from hw)] at h
  split at h
  · cases h
  · next hx =>
    cases h
    exact ⟨_, hx, rfl⟩

theorem refillStep_busWidth :
    RefillStep s (if goesWide s then [cmdFrame 55#6 (rcaArg s.session.rca), cmdFrame 6#6 2#32] else []) fit
      (HasCacheAndBus s.cache.base (s.busWide || goesWide s)) (refillBusWidth s) := by
  have hentered : ReadPart s { s with rfState := .busWidth } [] := readPart_write s.cache _ s
  by_cases hwide : goesWide s = true
  · obtain ⟨hsd, hw⟩ := Bool.and_eq_true_iff.mp hwide
    have pair := (refillStep_setBusWidth (s := { s with rfState := .busWidth }) (a := Config.busWidthArg)
      (fit := fit)).enter
    rw [if_pos hwide]
    refine ⟨fun {st t} hx => ?_, fun {st t} hx hne => ?_, fun {t} hx => ?_, fun hfit hgood => ?_⟩
    · obtain ⟨u, hu, rfl⟩ := refillBusWidth_cases hwide hx
      split_ifs with hst
      · subst hst
        obtain ⟨hpart, hgood⟩ := (pair.ran hu).of_ok
        exact ⟨⟨_, hpart.widen (by simp) hsd hw, .all hgood⟩, none, rfl⟩
      · exact pair.ran hu
    · obtain ⟨u, hu, rfl⟩ := refillBusWidth_cases hwide hx
      rw [if_neg hne]
      exact pair.failed hu hne
    · obtain ⟨u, hu, rfl⟩ := refillBusWidth_cases hwide hx
      rw [if_pos rfl, hwide, Bool.or_true]
      exact ⟨(pair.done hu).1, rfl⟩
    · obtain ⟨u, hu⟩ := pair.good hfit hgood
      refine ⟨{ u with busWide := true }, ?_⟩
      unfold refillBusWidth
      rw [if_pos (show (s.session.sd && s.cfg.hostWide) = true from hwide), hu]
      rfl
  · have hrun : refillBusWidth s = .ok (.ok, { s with rfState := .busWidth }) := by
      unfold refillBusWidth
      exact if_neg hwide
    rw [if_neg hwide, hrun]
    refine ⟨fun hx => ?_, fun hx hne => ?_, fun hx => ?_, fun _ _ => ⟨_, rfl⟩⟩
    · cases hx
      exact refillRan_nil hentered
    · cases hx
      exact absurd rfl hne
    · cases hx
      exact ⟨rfl, by simp [hwide]⟩

/-! The read (R268). -/

theorem checkedRow_read : CheckedRow .readSingleBlock := ⟨rfl, rfl, rfl, by decide⟩

/-- After a good response the data decides, and after `Ok` its bytes are in the buffer (R198). -/
theorem executeCmd_read_of_data (h : (answerAt s 0).rsp = goodRsp 17#6 w)
    (hfit : (answerAt s 0).data.fits s.busWide = true) :
    ∃ t, executeCmd .readSingleBlock b s = .ok (answerStatus 17#6 (answerAt s 0), t) ∧
      (answerStatus 17#6 (answerAt s 0) = .ok → (answerAt s 0).data.delivers t.cache.buf) := by
  obtain ⟨v, hv⟩ := awaitsData_of_response (addr := b) h
  rw [← hv.busWide] at hfit
  rw [answerStatus_read h]
  by_cases hnone : (answerAt s 0).data = .noData
  · rw [if_pos hnone]
    exact ⟨_, hv.run (dataPhase_silent hnone), nofun⟩
  rw [if_neg hnone]
  by_cases hcrc : (answerAt s 0).data.crcGood = true
  · obtain ⟨bytes, hbytes⟩ := exists_delivers hnone hcrc
    rw [if_pos hcrc]
    exact ⟨_, hv.run (dataPhase_delivers hfit hbytes), fun _ => hbytes⟩
  · obtain ⟨x, hx⟩ := dataPhase_corrupt hfit (by simpa using hcrc)
    rw [if_neg hcrc]
    exact ⟨_, hv.run hx, nofun⟩

/-- The data part of a completed read is of the form of the bus (R112). -/
theorem data_fits (h : executeCmd .readSingleBlock b s = .ok (st, t)) (hgood : (answerAt s 0).rsp = goodRsp 17#6 w) :
    (answerAt s 0).data.fits s.busWide = true := by
  by_contra hbad
  obtain ⟨v, hv⟩ := awaitsData_of_response (addr := b) hgood
  rw [hv.refused (dataPhase_misfit (by rw [hv.busWide]; simpa using hbad))] at h
  cases h

/-- A completed read ends with the status of its answer, after `Ok` with the bytes in the buffer. -/
theorem read_of_executeCmd (h : executeCmd .readSingleBlock b s = .ok (st, t)) :
    st = answerStatus 17#6 (answerAt s 0) ∧ (st = .ok → (answerAt s 0).data.delivers t.cache.buf) := by
  by_cases hgood : ∃ w, (answerAt s 0).rsp = goodRsp 17#6 w
  · obtain ⟨w, hw⟩ := hgood
    obtain ⟨u, hu, hbuf⟩ := executeCmd_read_of_data (b := b) hw (data_fits h hw)
    obtain ⟨rfl, rfl⟩ := Prod.mk.inj (Except.ok.inj (h.symm.trans hu))
    exact ⟨rfl, hbuf⟩
  · obtain ⟨u, hu⟩ := executeCmd_of_answer (a := b) checkedRow_read (answer_fits checkedRow_read h)
      (.inr (not_exists.mp hgood))
    obtain ⟨rfl, -⟩ := Prod.mk.inj (Except.ok.inj (h.symm.trans hu))
    exact ⟨rfl, fun hok => absurd (goodRsp_of_answerStatus hok) hgood⟩

theorem refillStep_read : RefillStep s [cmdFrame 17#6 b] ((answerAt s 0).data.fits s.busWide = true)
    (fun t => HasCacheAndBus s.cache.base s.busWide t ∧ (answerAt s 0).data.delivers t.cache.buf)
    (executeCmd .readSingleBlock b s) where
  ran hx := ⟨⟨_, readPart_of_executeCmd (c := .readSingleBlock) rfl rfl hx,
    judged_one (by rw [frameIndex_cmdFrame, (read_of_executeCmd hx).1])⟩, kind_of_executeCmd hx⟩
  failed hx _ := (executed_of_executeCmd hx).base
  done hx := ⟨hasCacheAndBus_of_executeCmd hx, (read_of_executeCmd hx).2 rfl⟩
  good hfit hgood := by
    have hok := (goodFrames_cons.mp hgood).1
    rw [frameIndex_cmdFrame] at hok
    obtain ⟨w, hw⟩ := goodRsp_of_answerStatus hok
    obtain ⟨u, hu, -⟩ := executeCmd_read_of_data (b := b) hw hfit
    exact ⟨u, hok ▸ hu⟩

end step

end Sys2Proof.Proofs

/-! SUPPORT. The whole refill: the steps in a row, what a completed refill leaves, and that it completes on good
answers. -/

namespace Sys2Proof.Proofs

open Sys2Proof.Machine Sys2Proof.Laws

section refill
variable {s t u : State} {a b : Word} {st : Status} {fit : Prop} {Q : State → Prop}

/-- The frames of a refill from this state after its deselect (R276). -/
def refillSends (a : Word) (s : State) : List Frame :=
  refillFrames (goesWide s) s.session.rca (blockBase a)

/-- The cache is the window of a block that this data frame delivered, on a bus of this width (R268, R269). -/
def HoldsBlock (base : Word) (data : DataAns) (wide : Bool) (t : State) : Prop :=
  t.cache.base = base ∧ data.delivers t.cache.buf ∧ t.busWide = wide

theorem refillDeselect_runs (s : State) : ∃ t, refillDeselect s = .ok t ∧
    ReadPart s t [cmdFrame 7#6 0#32] ∧ HasCacheAndBus s.cache.base s.busWide t := by
  obtain ⟨v, hv, -⟩ := completes_without_response (i := .deselectCard) (c := .deselectCard)
    { s with rfState := .deselect } rfl rfl rfl rfl
  rw [exec_of_executeCmd (c := .deselectCard) (a := 0) rfl rfl] at hv
  obtain ⟨st, t, hx, -⟩ := deliver_next hv
  have hhas := hasCacheAndBus_of_executeCmd hx
  have hsent := readPart_of_executeCmd (c := .deselectCard) rfl rfl hx
  exact ⟨t, by rw [refillDeselect, hx], (readPart_write s.cache .deselect s).trans hsent, hhas⟩

/-- The successful end is a step without a frame (R269). -/
theorem refillStep_end (h : Q (refillEnd b s).2) : RefillStep s [] fit Q (.ok (refillEnd b s)) where
  ran hx := by
    cases hx
    exact refillRan_nil (readPart_write _ _ s)
  failed hx hne := by
    cases hx
    exact absurd rfl hne
  done hx := by
    cases hx
    exact h
  good _ _ := ⟨_, rfl⟩

theorem ReadPart.goesWide {fs : List Frame} (h : ReadPart s t fs) : goesWide t = goesWide s := by
  rw [Proofs.goesWide, Proofs.goesWide, h.session, h.cfg]

/-- The refill after its deselect (R265 to R269). -/
theorem refillStep_refill (h : refillDeselect (cacheInvalidate s) = .ok u) :
    RefillStep u (refillSends a u)
      ((answerAt u ((refillSends a u).length - 1)).data.fits (u.busWide || goesWide u) = true)
      (HoldsBlock (blockBase a) (answerAt u ((refillSends a u).length - 1)).data (u.busWide || goesWide u))
      (refill a s) := by
  have hrun : refill a s = refillThen (refillSelect u) fun t => refillThen (refillBusWidth t) fun t =>
      refillThen (refillBlockLen t) fun t => refillThen (refillRead (blockBase a) t) fun t =>
      .ok (refillEnd (blockBase a) t) := by
    simp only [refill, h]
  rw [hrun]
  generalize hdata : (answerAt u ((refillSends a u).length - 1)).data = data
  have hsends : refillSends a u = [cmdFrame 7#6 (rcaArg u.session.rca)] ++
      ((if goesWide u then [cmdFrame 55#6 (rcaArg u.session.rca), cmdFrame 6#6 2#32] else []) ++
        ([cmdFrame 16#6 argBlocklen] ++ ([cmdFrame 17#6 (blockBase a)] ++ []))) := by
    simp [refillSends, refillFrames, rcaArg, argBlocklen]
  rw [hsends]
  refine (refillStep_checked (c := .selectCard) ⟨rfl, rfl, rfl, by decide⟩ rfl).enter.andThen And.left
    fun {t1} h1 q1 => ?_
  rw [← h1.session, ← h1.goesWide]
  refine refillStep_busWidth.andThen And.left fun {t2} h2 q2 => ?_
  refine (refillStep_checked (c := .setBlocklen) ⟨rfl, rfl, rfl, by decide⟩ rfl).enter.andThen And.left
    fun {t3} h3 q3 => ?_
  have hlast : (answerAt t3 0).data = data := by
    rw [((h1.trans h2).trans h3).answerAt, ← hdata, hsends, h1.goesWide]
    cases goesWide u <;> rfl
  have hwide : t3.busWide = (u.busWide || goesWide t1) := by
    rw [q3.2, ← q1.2]
    exact q2.2
  refine (refillStep_read.mono ?_ fun _ => id).enter.andThen (fun h => h.1.1) fun {t4} h4 q4 => refillStep_end ?_
  · rw [← hlast, ← hwide]
    exact id
  · rw [← hlast, ← hwide]
    exact ⟨rfl, q4.2, q4.1.2⟩

/-! A completed refill. -/

/-- The refill from `s` has completed (R264, R269, R276, R300). -/
structure Refilled (a : Word) (s t : State) (st : Status) : Prop where
  part   : ∃ sent, ReadPart s t (cmdFrame 7#6 0#32 :: sent) ∧
    Judged (fun k => answerAt s (k + 1)) (refillSends a s) st sent
  kind   : ∃ k, st = statusOf k
  idle   : t.rfState = .idle
  failed : st ≠ .ok → t.cache.base = Config.cacheInvalid
  filled : st = .ok →
    HoldsBlock (blockBase a) (answerAt s (refillSends a s).length).data (s.busWide || goesWide s) t

theorem refillThen_idle {r : Res Status} {next : State → Res Status}
    (hnext : ∀ {u}, next u = .ok (st, t) → t.rfState = .idle) (h : refillThen r next = .ok (st, t)) :
    t.rfState = .idle := by
  obtain ⟨_, u, -, ⟨-, hk⟩ | ⟨-, -, rfl⟩⟩ := refillThen_cases h
  · exact hnext hk
  · rfl

theorem refill_idle (h : refill a s = .ok (st, t)) : t.rfState = .idle := by
  unfold refill at h
  split at h
  · cases h
  · refine refillThen_idle (refillThen_idle (refillThen_idle (refillThen_idle fun hend => ?_))) h
    cases hend
    rfl

/-- The deselect as the first frame of the refill, and the answers after it. -/
theorem deselected (s : State) : ∃ u, refillDeselect (cacheInvalidate s) = .ok u ∧
    ReadPart s u [cmdFrame 7#6 0#32] ∧ HasCacheAndBus Config.cacheInvalid s.busWide u ∧
    answerAt u = fun k => answerAt s (k + 1) := by
  obtain ⟨u, hu, hpart, hhas⟩ := refillDeselect_runs (cacheInvalidate s)
  have hpart : ReadPart s u [cmdFrame 7#6 0#32] := (readPart_write _ s.rfState s).trans hpart
  refine ⟨u, hu, hpart, hhas, funext fun k => ?_⟩
  rw [hpart.answerAt, List.length_singleton, Nat.add_comm]

theorem length_refillFrames (pair : Bool) (rca : BitVec 16) (base : Word) :
    (refillFrames pair rca base).length = if pair then 5 else 3 := by
  cases pair <;> rfl

theorem refillSends_of_part {fs : List Frame} (h : ReadPart s u fs) : refillSends a u = refillSends a s := by
  rw [refillSends, refillSends, h.goesWide, h.session]

theorem refillSends_length_pos (a : Word) (s : State) : 0 < (refillSends a s).length := by
  rw [refillSends, length_refillFrames]
  split <;> decide

/-- How a completed refill came about. -/
theorem refilled_of_refill (h : refill a s = .ok (st, t)) : Refilled a s t st := by
  obtain ⟨u, hu, hpart, ⟨hbase, hwide⟩, hans⟩ := deselected s
  have step := refillStep_refill (a := a) hu
  have hlen := refillSends_length_pos a s
  simp only [refillSends_of_part hpart, hans, hwide, hpart.goesWide, Nat.sub_add_cancel hlen] at step
  obtain ⟨⟨sent, hsent, hjudged⟩, hkind⟩ := step.ran h
  rw [hans] at hjudged
  exact ⟨⟨sent, hpart.trans hsent, hjudged⟩, hkind, refill_idle h, fun hne => (step.failed h hne).trans hbase,
    fun hok => step.done (hok ▸ h)⟩

/-- On good answers, with a data frame that fits the bus, the refill completes. -/
theorem refill_of_good (hgood : GoodFrames (fun k => answerAt s (k + 1)) (refillSends a s))
    (hfit : (answerAt s (refillSends a s).length).data.fits (s.busWide || goesWide s) = true) :
    ∃ t, refill a s = .ok (.ok, t) := by
  obtain ⟨u, hu, hpart, ⟨-, hwide⟩, hans⟩ := deselected s
  have step := refillStep_refill (a := a) hu
  have hlen := refillSends_length_pos a s
  simp only [refillSends_of_part hpart, hans, hwide, hpart.goesWide, Nat.sub_add_cancel hlen] at step
  exact step.good hfit (hans ▸ hgood)

end refill

/-! ### The statement about every refill -/

section judged
variable {ans : Nat → Answer} {sends sent : List Frame} {st : Status}

/-- The last frame sent is the one whose answer gives the status. -/
theorem Judged.last (h : Judged ans sends st sent) (hne : sends ≠ []) :
    ∃ before f after, sends = before ++ f :: after ∧ sent = before ++ [f] ∧
      answerStatus (frameIndex f) (ans before.length) = st ∧ GoodFrames ans before ∧ (st = .ok → after = []) := by
  cases h with
  | all h =>
    obtain ⟨before, f, rfl⟩ := (List.eq_nil_or_concat' sends).resolve_left hne
    obtain ⟨hbefore, hf⟩ := goodFrames_append.mp h
    exact ⟨before, f, [], rfl, rfl, (goodFrames_cons.mp hf).1, hbefore, fun _ => rfl⟩
  | @stopped before after f _ hs h hst hbad => exact ⟨before, f, after, hs, rfl, hst, h, fun hok => absurd hok hbad⟩

theorem statusOf_cases (k : Option FailKind) :
    statusOf k = .ok ∨ statusOf k = .timeout ∨ statusOf k = .crcError ∨ statusOf k = .commandError := by
  rcases k with _ | k
  · decide
  · cases k <;> decide

end judged

/-- Settles O51, from `refilled_of_refill`: the last frame sent is the first whose answer is not good, or the last of
all. -/
theorem refillFillsOrEmptiesTheCache : Obligations.RefillFillsOrEmptiesTheCache := by
  intro a s t st h
  obtain ⟨⟨sent, hpart, hjudged⟩, ⟨k, hkind⟩, hidle, hfailed, hfilled⟩ := refilled_of_refill h
  obtain ⟨hclk, hflags⟩ := hpart.sent (List.cons_ne_nil _ _)
  obtain ⟨before, f, after, hsends, rfl, hst, hgood, hall⟩ :=
    hjudged.last (List.ne_nil_of_length_pos (refillSends_length_pos a s))
  have hbase : st = .ok → t.cache.base = blockBase a := fun hok => (hfilled hok).1
  refine ⟨fun hok => ⟨hbase hok, hbase hok ▸ inWindow_blockBase a⟩, hfailed, hkind ▸ statusOf_cases k, hidle, hflags,
    hpart.session, congrArg (·.1.2.1) hpart.same, congrArg (·.1.2.2.1) hpart.same, hpart.caller, hpart.cfg, hclk, ?_⟩
  show ∃ n f, (refillSends a s)[n]? = some f ∧ framesOf t.trace = framesOf s.trace ++ cmdFrame 7#6 0#32 ::
    (refillSends a s).take (n + 1) ∧ answerStatus (frameIndex f) (answerAt s (n + 1)) = st ∧
    (∀ k g, k < n → (refillSends a s)[k]? = some g → answerStatus (frameIndex g) (answerAt s (k + 1)) = .ok) ∧
    (st = .ok → n + 1 = (refillSends a s).length)
  refine ⟨before.length, f, ?_, ?_, hst, fun k g hk hg => hgood k g ?_, fun hok => ?_⟩
  · simp [hsends]
  · rw [hpart.wire, hsends, List.take_append]
    simp
  · rwa [hsends, List.getElem?_append_left hk] at hg
  · simp [hsends, hall hok]

end Sys2Proof.Proofs

/-! SUPPORT. READ run forward: a refill whose answers are good, and the reads of one block and of two. -/

namespace Sys2Proof.Proofs

open Sys2Proof.Machine Sys2Proof.Laws

/-! ### A refill on good answers -/

/-- The card answers the refill of the block of `a` from here well, with this block on the lines of the bus (R276). -/
structure Answers (a : Word) (bytes : Block) (s : State) : Prop where
  good     : GoodFrames (fun k => answerAt s (k + 1)) (refillSends a s)
  fits     : (answerAt s (refillSends a s).length).data.fits (s.busWide || goesWide s) = true
  delivers : (answerAt s (refillSends a s).length).data.delivers bytes

/-- A READ has refilled from `s` and, the bytes copied meanwhile aside, is in `t`: these frames went out, the block of
`a` with these bytes is in the cache, the refill sequencer is at rest and the bus has this width. -/
structure Fetched (a : Word) (bytes : Block) (fs : List Frame) (wide : Bool) (s t : State) : Prop where
  part    : ReadPart s t fs
  cache   : t.cache = ⟨blockBase a, bytes⟩
  idle    : t.rfState = .idle
  busWide : t.busWide = wide

section fetch
variable {s t u : State} {a : Word} {bytes : Block} {d : Desc} {fs : List Frame} {n : Nat}

/-- The whole of the frames of a refill (R276). -/
def refillWire (a : Word) (s : State) : List Frame := cmdFrame 7#6 0#32 :: refillSends a s

theorem refillWire_of_part (h : ReadPart s u fs) : refillWire a u = refillWire a s :=
  congrArg (cmdFrame 7#6 0#32 :: ·) (refillSends_of_part h)

theorem fetched_of_answers (h : Answers a bytes s) (hmiss : inWindow s.cache.base a = false) :
    ∃ t, ensureWindow a s = .ok (.ok, t) ∧ Fetched a bytes (refillWire a s) (s.busWide || goesWide s) s t := by
  obtain ⟨t, hx⟩ := refill_of_good h.good h.fits
  obtain ⟨⟨sent, hpart, hjudged⟩, -, hidle, -, hfilled⟩ := refilled_of_refill hx
  obtain ⟨rfl, -⟩ := hjudged.of_ok
  obtain ⟨hbase, hbuf, hwide⟩ := hfilled rfl
  refine ⟨t, by simp [ensureWindow, hmiss, hx], hpart, ?_, hidle, hwide⟩
  rw [← hbase, delivers_injective h.delivers hbuf]

/-- The copy takes no answer. -/
theorem Answers.copyOut {b : Word} {done k : Nat} (h : Answers a bytes s) : Answers a bytes (copyOut b done k s) :=
  ⟨h.good, h.fits, h.delivers⟩

/-- What the end of a READ writes is no part of it. -/
theorem ReadPart.readEnd {st : Status} (h : ReadPart s t fs) : ReadPart s (readEnd d n st t) fs :=
  ⟨h.same, h.wire, h.card, h.time, h.clkRun, h.busWide, h.unsent, h.sent⟩

/-! The answers written out. -/

theorem answers_narrow {a0 a1 a2 a3 : Answer} {rest : List Answer} {p1 p2 p3 : Word}
    (hcard : s.card = a0 :: a1 :: a2 :: a3 :: rest) (hpair : goesWide s = false) (hbus : s.busWide = false)
    (h1 : a1.rsp = goodRsp 7#6 p1) (hbusy : a1.busyReleased = true) (h2 : a2.rsp = goodRsp 16#6 p2)
    (h3 : a3.rsp = goodRsp 17#6 p3) (hdata : a3.data = .data bytes (crc16 bytes.toList)) : Answers a bytes s := by
  have hdelivers : a3.data.delivers bytes := .inl hdata
  have hlen : (refillSends a s).length = 3 := by rw [refillSends, length_refillFrames, hpair]; rfl
  have hlast : answerAt s 3 = a3 := by rw [answerAt, hcard]; rfl
  refine ⟨?_, ?_, ?_⟩
  · simp [refillSends, hpair, refillFrames, goodFrames_cons, goodFrames_nil, answerAt, hcard,
      answerStatus_good h1 (fun _ => hbusy), answerStatus_good h2, answerStatus_delivers h3 hdelivers]
  · rw [hlen, hlast, hpair, hbus, hdata]
    rfl
  · rwa [hlen, hlast]

theorem answers_wide {a0 a1 a55 a6 a2 a3 : Answer} {rest : List Answer} {p1 p2 p3 p4 p5 : Word}
    {c3 c2 c1 c0 : BitVec 16} (hcard : s.card = a0 :: a1 :: a55 :: a6 :: a2 :: a3 :: rest)
    (hpair : goesWide s = true) (h1 : a1.rsp = goodRsp 7#6 p1) (hbusy : a1.busyReleased = true)
    (h55 : a55.rsp = goodRsp 55#6 p4) (h6 : a6.rsp = goodRsp 6#6 p5)
    (h2 : a2.rsp = goodRsp 16#6 p2) (h3 : a3.rsp = goodRsp 17#6 p3) (hdata : a3.data = .data4 bytes c3 c2 c1 c0)
    (hcrc : (c3, c2, c1, c0) = lineCrcs bytes.toList) : Answers a bytes s := by
  have hdelivers : a3.data.delivers bytes := .inr ⟨c3, c2, c1, c0, hdata, hcrc⟩
  have hlen : (refillSends a s).length = 5 := by rw [refillSends, length_refillFrames, hpair]; rfl
  have hlast : answerAt s 5 = a3 := by rw [answerAt, hcard]; rfl
  refine ⟨?_, ?_, ?_⟩
  · simp [refillSends, hpair, refillFrames, goodFrames_cons, goodFrames_nil, answerAt, hcard,
      answerStatus_good h1 (fun _ => hbusy), answerStatus_good h55, answerStatus_good h6, answerStatus_good h2,
      answerStatus_delivers h3 hdelivers]
  · rw [hlen, hlast, hpair, hdata, Bool.or_true]
    rfl
  · rwa [hlen, hlast]

end fetch

/-! ### Reads of one block and of two -/

section reads
variable {s t u v : State} {d : Desc} {bufSize length : Word} {bytes first second : Block} {n done k : Nat}

/-- A READ within one block that is not cached refills it and copies from it, on either bus (R262 to R269). -/
theorem read_one_block (hb : s.between = true) (hd : descWf d = true) (hl : length.toNat ≤ bufSize.toNat)
    (ha : s.session.acquired = true) (hwf : Memory.wf s.caller = true) (hpos : 0 < clip d length)
    (hblock : blockOff (cardAddr d 0) + clip d length ≤ 512) (hmiss : inWindow s.cache.base (cardAddr d 0) = false)
    (hans : Answers (cardAddr d 0) bytes s) :
    Completes (.read d bufSize length) s fun t =>
      t.result = .read (BitVec.ofNat 32 (clip d length)) .ok (BitVec.ofNat 32 (d.cursor.toNat + clip d length)) ∧
      t.desc = { d with cursor := BitVec.ofNat 32 (d.cursor.toNat + clip d length) } ∧
      Fetched (cardAddr d 0) bytes (refillWire (cardAddr d 0) s) (s.busWide || goesWide s)
        { s with caller := t.caller } t ∧
      ∀ x, Memory.get t.caller x =
        if x < clip d length then bytes.toList.getD (blockOff (cardAddr d 0) + x) 0 else Memory.get s.caller x := by
  obtain ⟨u, hx, hpart, hcache, hidle, hwide⟩ := fetched_of_answers hans hmiss
  refine ⟨_, exec_read_of_turns hb hd hl ha (readTurns_one hpos hblock hx), rfl, rfl,
    ⟨(hpart.withCaller _).readEnd, hcache, hidle, hwide⟩, fun x => ?_⟩
  refine (get_copyOut (hpart.caller ▸ hwf) hblock x).trans ?_
  rw [hcache, hpart.caller]
  simp

/-- Where a turn ends inside the range the next block begins (R67, R263). -/
theorem next_block (hd : descWf d = true) (h : done + (512 - blockOff (cardAddr d done)) < clip d length) :
    blockOff (cardAddr d (done + (512 - blockOff (cardAddr d done)))) = 0 ∧
    (blockBase (cardAddr d (done + (512 - blockOff (cardAddr d done))))).toNat =
      (blockBase (cardAddr d done)).toNat + 512 := by
  have hlt : done < clip d length := by omega
  have hoff := blockOff_eq_mod (cardAddr d done)
  rw [toNat_cardAddr hd hlt] at hoff
  rw [blockOff_eq_mod, toNat_blockBase, toNat_blockBase, toNat_cardAddr hd h, toNat_cardAddr hd hlt, hoff]
  omega

/-- In the card's addresses (R61). -/
theorem blockBase_next {a a' : Word} (h : (blockBase a').toNat = (blockBase a).toNat + 512) :
    blockBase a' = blockBase a + 512#32 := by
  have hlt := (blockBase a').isLt
  rw [h] at hlt
  rw [BitVec.toNat_eq, h, BitVec.toNat_add]
  exact (Nat.mod_eq_of_lt hlt).symm

/-- The block after one that is cached is not. -/
theorem miss_next_block {a a' : Word} (hcache : s.cache.base = blockBase a)
    (hnext : (blockBase a').toNat = (blockBase a).toNat + 512) : inWindow s.cache.base a' = false := by
  rw [hcache, ← Bool.not_eq_true, inWindow_iff_blockBase (blockBase_aligned a)]
  intro heq
  rw [heq] at hnext
  omega

/-- A READ that straddles two blocks is two turns. -/
theorem readTurns_two (hk : k = 512 - blockOff (cardAddr d 0)) (h : k < n) (hend : n ≤ k + 512)
    (hnext : blockOff (cardAddr d k) = 0) (hx : ensureWindow (cardAddr d 0) s = .ok (.ok, u))
    (hy : ensureWindow (cardAddr d k) (copyOut (cardAddr d 0) 0 k u) = .ok (.ok, v)) :
    readTurns d n n 0 s = .ok ((n, .ok), copyOut (cardAddr d k) k (n - k) v) := by
  have hoff := blockOff_lt (cardAddr d 0)
  obtain ⟨m, rfl⟩ : ∃ m, n = m + 1 + 1 := ⟨n - 2, by omega⟩
  have hlen : copyLen (cardAddr d 0) (m + 1 + 1 - 0) = k := by
    simp only [copyLen, Config.workBlock]
    omega
  have hlen' : copyLen (cardAddr d k) (m + 1 + 1 - k) = m + 1 + 1 - k := by
    simp only [copyLen, Config.workBlock, hnext]
    omega
  rw [readTurns_succ (by omega) hx, hlen, Nat.zero_add, readTurns_succ h hy, hlen', Nat.add_sub_cancel' h.le,
    readTurns_zero]

/-- A READ that straddles two blocks, the first one not cached, refills both and copies from each (R270). -/
theorem read_two_blocks (hb : s.between = true) (hd : descWf d = true) (hl : length.toNat ≤ bufSize.toNat)
    (ha : s.session.acquired = true) (hwf : Memory.wf s.caller = true)
    (hover : 512 < blockOff (cardAddr d 0) + clip d length) (hend : blockOff (cardAddr d 0) + clip d length ≤ 1024)
    (hmiss : inWindow s.cache.base (cardAddr d 0) = false) (hans : Answers (cardAddr d 0) first s)
    (hans' : ∀ {u}, ReadPart s u (refillWire (cardAddr d 0) s) → u.busWide = (s.busWide || goesWide s) →
      Answers (cardAddr d (512 - blockOff (cardAddr d 0))) second u) :
    Completes (.read d bufSize length) s fun t =>
      t.result = .read (BitVec.ofNat 32 (clip d length)) .ok (BitVec.ofNat 32 (d.cursor.toNat + clip d length)) ∧
      t.desc = { d with cursor := BitVec.ofNat 32 (d.cursor.toNat + clip d length) } ∧
      ReadPart { s with caller := t.caller } t
        (refillWire (cardAddr d 0) s ++ refillWire (cardAddr d (512 - blockOff (cardAddr d 0))) s) ∧
      t.cache = ⟨blockBase (cardAddr d (512 - blockOff (cardAddr d 0))), second⟩ ∧ t.rfState = .idle ∧
      ∀ x, Memory.get t.caller x =
        if blockOff (cardAddr d 0) + x < 512 then first.toList.getD (blockOff (cardAddr d 0) + x) 0
        else if x < clip d length then second.toList.getD (blockOff (cardAddr d 0) + x - 512) 0
        else Memory.get s.caller x := by
  have hoff := blockOff_lt (cardAddr d 0)
  have hinside : 0 + (512 - blockOff (cardAddr d 0)) < clip d length := by omega
  obtain ⟨hstart, hbase⟩ := next_block hd hinside
  simp only [Nat.zero_add] at hstart hbase
  obtain ⟨u, hx, hu⟩ := fetched_of_answers hans hmiss
  generalize hk : 512 - blockOff (cardAddr d 0) = k at hstart hbase hans' ⊢
  have hcached : (copyOut (cardAddr d 0) 0 k u).cache.base = blockBase (cardAddr d 0) := congrArg Cache.base hu.cache
  obtain ⟨v, hy, hv⟩ := fetched_of_answers (hans' hu.part hu.busWide).copyOut (miss_next_block hcached hbase)
  have hrun := readTurns_two hk.symm (show k < clip d length by omega) (by omega) hstart hx hy
  refine ⟨_, exec_read_of_turns hb hd hl ha hrun, rfl, rfl, ReadPart.readEnd ?_, hv.cache, hv.idle, fun x => ?_⟩
  · have hpart := hv.part
    have hwire : refillWire (cardAddr d k) u = refillWire (cardAddr d k) s := refillWire_of_part hu.part
    rw [show refillWire (cardAddr d k) (copyOut (cardAddr d 0) 0 k u) = _ from hwire] at hpart
    exact (hu.part.withCaller _).trans (hpart.withCaller _)
  · have hwf' : Memory.wf u.caller = true := hu.part.caller ▸ hwf
    have hget := get_copyOut (a := cardAddr d 0) (done := 0) (k := k) hwf' (by omega) x
    have hcaller : v.caller = (copyOut (cardAddr d 0) 0 k u).caller := hv.part.caller
    refine (get_copyOut (hcaller ▸ memory_wf_setAll _ _ hwf') (by omega) x).trans ?_
    rw [hcaller, hget, hu.cache, hv.cache, hu.part.caller, hstart]
    simp only [Nat.zero_le, true_and, Nat.zero_add, Nat.sub_zero]
    by_cases hfirst : blockOff (cardAddr d 0) + x < 512
    · rw [if_neg (by omega), if_pos (by omega), if_pos hfirst]
    · rw [if_neg hfirst]
      by_cases hsecond : x < clip d length
      · rw [if_pos (by omega), if_pos hsecond, show x - k = blockOff (cardAddr d 0) + x - 512 by omega]
      · rw [if_neg (by omega), if_neg (by omega), if_neg hsecond]

end reads

/-! ### The statements -/

/-- Without the bus-width pair the bus stays as it is (R266). -/
theorem busWide_narrow {s : State} (hpair : goesWide s = false) (hwide : wideOnlySd s = true) : s.busWide = false := by
  rw [wideOnlySd, show (s.session.sd && s.cfg.hostWide) = false from hpair, Bool.or_false] at hwide
  simpa using hwide

theorem refillWire_narrow {s : State} (a : Word) (hpair : goesWide s = false) :
    refillWire a s = [cmdFrame 7#6 0#32, cmdFrame 7#6 (s.session.rca ++ 0#16), cmdFrame 16#6 512#32,
      cmdFrame 17#6 (blockBase a)] := by
  rw [refillWire, refillSends, hpair]
  rfl

theorem refillWire_wide {s : State} (a : Word) (hpair : goesWide s = true) :
    refillWire a s = [cmdFrame 7#6 0#32, cmdFrame 7#6 (s.session.rca ++ 0#16), cmdFrame 55#6 (s.session.rca ++ 0#16),
      cmdFrame 6#6 2#32, cmdFrame 16#6 512#32, cmdFrame 17#6 (blockBase a)] := by
  rw [refillWire, refillSends, hpair]
  rfl

/-- Settles O48, by `read_one_block` on the four answers. -/
theorem readRefillsOneBlock : Obligations.ReadRefillsOneBlock := by
  intro s d bufSize length p1 p2 p3 a0 a1 a2 a3 rest bytes hb hd hl ha hpair hwide hwf hpos hblock hmiss hcard h1 hbusy
    h2 h3 hdata
  have hbus := busWide_narrow hpair hwide
  have hans := answers_narrow (a := cardAddr d 0) hcard hpair hbus h1 hbusy h2 h3 hdata
  refine completes_mono (read_one_block hb hd hl ha hwf hpos hblock hmiss hans) ?_
  rintro t ⟨hresult, hdesc, ⟨hpart, hcache, hidle, hwidth⟩, hget⟩
  rw [refillWire_narrow _ hpair] at hpart
  obtain ⟨hclk, hflags⟩ := hpart.sent (List.cons_ne_nil _ _)
  refine ⟨hresult, hdesc, hpart.wire, hcache, ?_, hclk, ?_, hpart.session, hidle, hflags, hget⟩
  · rw [hpart.card]
    simp [hcard]
  · rw [hwidth, show goesWide s = false from hpair, Bool.or_false]

/-- Settles O49, by `read_one_block` on the six answers. -/
theorem readRefillsOneBlockWide : Obligations.ReadRefillsOneBlockWide := by
  intro s d bufSize length p1 p2 p3 p4 p5 a0 a1 a55 a6 a2 a3 rest bytes c3 c2 c1 c0 hb hd hl ha hpair hwf hpos hblock
    hmiss hcard h1 hbusy h55 h6 h2 h3 hdata hcrc
  have hans := answers_wide (a := cardAddr d 0) hcard hpair h1 hbusy h55 h6 h2 h3 hdata hcrc
  refine completes_mono (read_one_block hb hd hl ha hwf hpos hblock hmiss hans) ?_
  rintro t ⟨hresult, -, ⟨hpart, hcache, hidle, hwidth⟩, hget⟩
  rw [refillWire_wide _ hpair] at hpart
  obtain ⟨hclk, hflags⟩ := hpart.sent (List.cons_ne_nil _ _)
  refine ⟨hresult, hpart.wire, hcache, ?_, hclk, ?_, hpart.session, hidle, hflags, hget⟩
  · rw [hpart.card]
    simp [hcard]
  · rw [hwidth, show goesWide s = true from hpair, Bool.or_true]

/-- Settles O50, by `read_two_blocks`: the first refill takes four answers and leaves the other four. -/
theorem readStraddlingTwoBlocksRefillsTwice : Obligations.ReadStraddlingTwoBlocksRefillsTwice := by
  intro s d bufSize length p1 p2 p3 p5 p6 p7 a0 a1 a2 a3 a4 a5 a6 a7 rest first second hb hd hl ha hpair hwide hwf hover
    hend hmiss hcard h1 hbusy h2 h3 hdata h5 hbusy' h6 h7 hdata'
  have hbus := busWide_narrow hpair hwide
  have hans := answers_narrow (a := cardAddr d 0) hcard hpair hbus h1 hbusy h2 h3 hdata
  refine completes_mono (read_two_blocks hb hd hl ha hwf hover hend hmiss hans (second := second) ?_) ?_
  · intro u hu hwidth
    have hcard' : u.card = a4 :: a5 :: a6 :: a7 :: rest := by
      rw [hu.card, refillWire_narrow _ hpair]
      simp [hcard]
    have hpair' : goesWide u = false := hu.goesWide.trans hpair
    have hbus' : u.busWide = false := by
      rw [hwidth, hbus, show goesWide s = false from hpair, Bool.or_false]
    exact answers_narrow hcard' hpair' hbus' h5 hbusy' h6 h7 hdata'
  · rintro t ⟨hresult, hdesc, hpart, hcache, hidle, hget⟩
    have hbase : blockBase (cardAddr d (512 - blockOff (cardAddr d 0))) = blockBase (cardAddr d 0) + 512#32 := by
      have hinside : 0 + (512 - blockOff (cardAddr d 0)) < clip d length := by
        have := blockOff_lt (cardAddr d 0)
        omega
      have hnext := (next_block hd hinside).2
      rw [Nat.zero_add] at hnext
      exact blockBase_next hnext
    rw [refillWire_narrow _ hpair, refillWire_narrow _ hpair, hbase] at hpart
    rw [hbase] at hcache
    obtain ⟨hclk, hflags⟩ := hpart.sent (List.cons_ne_nil _ _)
    refine ⟨hresult, hdesc, hpart.wire, hcache, ?_, hclk, hpart.session, hidle, hflags, hget⟩
    rw [hpart.card]
    simp [hcard]

end Sys2Proof.Proofs

/-! SUPPORT. Any READ of an acquired card, turn by turn: what went out, and where each byte of the caller's buffer comes
from. -/

namespace Sys2Proof.Proofs

open Sys2Proof.Machine Sys2Proof.Laws

/-! ### The run of a READ -/

/-- The frames of a refill before its read, with this session (R276). -/
def refillSetup (s : State) : List Frame :=
  [cmdFrame 7#6 0#32, cmdFrame 7#6 (s.session.rca ++ 0#16), cmdFrame 55#6 (s.session.rca ++ 0#16), cmdFrame 6#6 2#32,
    cmdFrame 16#6 512#32]

/-- A frame of some refill. -/
def RefillFrame (s : State) (f : Frame) : Prop := f ∈ refillSetup s ∨ ∃ a, f = cmdFrame 17#6 (blockBase a)

/-- A READ from `s` has come to `t`, the bytes copied aside: these frames went out, all of them a refill's, and without
one the cache is as it was. -/
structure ReadRun (s t : State) (fs : List Frame) : Prop where
  part   : ReadPart { s with caller := t.caller } t fs
  idle   : t.rfState = .idle
  unsent : fs = [] → t.cache = s.cache
  frames : ∀ f ∈ fs, RefillFrame s f

section run
variable {s t u : State} {a : Word} {st : Status} {fs sends sent : List Frame} {ans : Nat → Answer} {f : Frame}

theorem refillFrame_of_mem (h : f ∈ refillWire a s) : RefillFrame s f := by
  suffices f ∈ refillSetup s ∨ f = cmdFrame 17#6 (blockBase a) from this.imp_right fun hread => ⟨a, hread⟩
  rw [refillSetup]
  cases hwide : goesWide s with
  | false =>
    rw [refillWire_narrow a hwide] at h
    simp only [List.mem_cons, List.not_mem_nil, or_false] at h ⊢
    tauto
  | true =>
    rw [refillWire_wide a hwide] at h
    simp only [List.mem_cons, List.not_mem_nil, or_false] at h ⊢
    tauto

/-- What went out was to go out. -/
theorem Judged.subset (h : Judged ans sends st sent) (hf : f ∈ sent) : f ∈ sends := by
  cases h with
  | all => exact hf
  | @stopped before after g _ hs =>
    rw [hs]
    simp only [List.mem_append, List.mem_cons, List.not_mem_nil, or_false] at hf ⊢
    tauto

theorem ReadRun.start (hidle : s.rfState = .idle) : ReadRun s s [] :=
  ⟨by simpa using readPart_write s.cache s.rfState s, hidle, fun _ => rfl, nofun⟩

theorem ReadRun.copyOut {done k : Nat} (h : ReadRun s t fs) : ReadRun s (copyOut a done k t) fs :=
  ⟨h.part.withCaller _, h.idle, h.unsent, h.frames⟩

/-- A refill after it, with the answers from there on. -/
theorem ReadRun.refill (h : ReadRun s u fs) (k : Refilled a u t st) : ∃ sent,
    ReadRun s t (fs ++ cmdFrame 7#6 0#32 :: sent) ∧ t.caller = u.caller ∧
    Judged (fun j => answerAt s (fs.length + (j + 1))) (refillSends a s) st sent := by
  obtain ⟨⟨sent, hpart, hjudged⟩, -, hidle, -, -⟩ := k
  have hsends : refillSends a u = refillSends a s := (refillSends_of_part h.part).trans rfl
  have hans : (fun j => answerAt u (j + 1)) = fun j => answerAt s (fs.length + (j + 1)) :=
    funext fun j => h.part.answerAt _
  rw [hsends, hans] at hjudged
  refine ⟨sent, ⟨?_, hidle, by simp, fun f hf => ?_⟩, hpart.caller, hjudged⟩
  · rw [hpart.caller]
    exact h.part.trans hpart
  · obtain hf | hf := List.mem_append.mp hf
    · exact h.frames f hf
    · refine refillFrame_of_mem (a := a) ?_
      rcases List.mem_cons.mp hf with rfl | hf
      · exact List.mem_cons_self
      · exact List.mem_cons_of_mem _ (hjudged.subset hf)

end run

/-! ### Where a byte comes from -/

/-- The block with this base, as this READ had it: the cached one, if the range starts in it, and otherwise what the
card delivered in answer to the READ_SINGLE_BLOCK of it (R262, R268). -/
def BlockSource (s : State) (d : Desc) (fs : List Frame) (base : Word) (block : Block) : Prop :=
  if inWindow s.cache.base (cardAddr d 0) = true ∧ base = blockBase (cardAddr d 0) then block = s.cache.buf
  else ∃ k, fs[k]? = some (cmdFrame 17#6 base) ∧ (answerAt s k).data.delivers block

/-- The READ has copied these many bytes, and is at the start of a block that is not cached if it goes on (R263). -/
structure Reading (d : Desc) (n : Nat) (s : State) (done : Nat) (u : State) (fs : List Frame) : Prop where
  run      : ReadRun s u fs
  start    : done = 0 → fs = []
  wf       : Memory.wf u.caller = true
  beyond   : ∀ x, done ≤ x → Memory.get u.caller x = Memory.get s.caller x
  boundary : 0 < done → done < n → blockOff (cardAddr d done) = 0
  left     : cacheAligned s = true → 0 < done → done < n → inWindow u.cache.base (cardAddr d done) = false
  bytes    : cacheAligned s = true → ∀ x, x < done → ∃ block : Block,
    Memory.get u.caller x = block.toList.getD (blockOff (cardAddr d x)) 0 ∧
    BlockSource s d fs (blockBase (cardAddr d x)) block

/-- After the look at the window for `a` (R262): with `Ok` its block is there; with any other status the cache is empty
and the status is that of the answer to the last frame. -/
structure Windowed (d : Desc) (a : Word) (s t : State) (st : Status) (fs : List Frame) : Prop where
  run    : ReadRun s t fs
  kind   : ∃ k, st = statusOf k
  held   : st = .ok → cacheAligned s = true →
    t.cache.base = blockBase a ∧ BlockSource s d fs (blockBase a) t.cache.buf
  failed : st ≠ .ok → t.cache.base = Config.cacheInvalid ∧
    ∃ f, fs.getLast? = some f ∧ answerStatus (frameIndex f) (answerAt s (fs.length - 1)) = st

section turns
variable {s t u : State} {a base length : Word} {st : Status} {fs : List Frame} {d : Desc} {n done count x : Nat}
  {block : Block}

/-- Frames that go out later change no source. -/
theorem BlockSource.append (h : BlockSource s d fs base block) (gs : List Frame) :
    BlockSource s d (fs ++ gs) base block := by
  unfold BlockSource at h ⊢
  split_ifs at h ⊢
  · exact h
  · obtain ⟨k, hk, hdelivers⟩ := h
    exact ⟨k, by rw [List.getElem?_append_left (List.getElem?_eq_some_iff.mp hk).1, hk], hdelivers⟩

theorem ensureWindow_cases (h : ensureWindow a s = .ok (st, t)) :
    (inWindow s.cache.base a = true ∧ st = .ok ∧ t = s) ∨ (inWindow s.cache.base a = false ∧ Refilled a s t st) := by
  unfold ensureWindow at h
  split at h
  · next hhit =>
    cases h
    exact .inl ⟨hhit, rfl, rfl⟩
  · next hmiss => exact .inr ⟨by simpa using hmiss, refilled_of_refill h⟩

/-- The last frame of a whole refill is the READ_SINGLE_BLOCK of the block. -/
theorem refillWire_last (a : Word) (s : State) :
    (refillWire a s)[(refillSends a s).length]? = some (cmdFrame 17#6 (blockBase a)) := by
  rw [refillWire, refillSends]
  cases goesWide s <;> rfl

/-- The READ loop never comes back to the block it started in, and it does not refill that block if it was cached. -/
theorem Reading.not_start_block (h : Reading d n s done u fs) (hd : descWf d = true) (hlt : done < n)
    (hn : n ≤ clip d length) (hmiss : inWindow u.cache.base (cardAddr d done) = false) :
    ¬(inWindow s.cache.base (cardAddr d 0) = true ∧ blockBase (cardAddr d done) = blockBase (cardAddr d 0)) := by
  rintro ⟨hhit, hsame⟩
  rcases Nat.eq_zero_or_pos done with rfl | hpos
  · rw [h.run.unsent (h.start rfl), hhit] at hmiss
    cases hmiss
  · have hbase := toNat_blockBase_add (cardAddr d done)
    have hbase0 := toNat_blockBase_add (cardAddr d 0)
    rw [h.boundary hpos hlt, hsame, toNat_cardAddr hd (hlt.trans_le hn)] at hbase
    rw [toNat_cardAddr hd ((hpos.trans hlt).trans_le hn)] at hbase0
    omega

/-- The look at the window in a turn (R262). -/
theorem Reading.window (h : Reading d n s done u fs) (hd : descWf d = true) (hlt : done < n) (hn : n ≤ clip d length)
    (hx : ensureWindow (cardAddr d done) u = .ok (st, t)) :
    ∃ gs, Windowed d (cardAddr d done) s t st (fs ++ gs) ∧ t.caller = u.caller := by
  obtain ⟨hhit, rfl, rfl⟩ | ⟨hmiss, hrefilled⟩ := ensureWindow_cases hx
  · refine ⟨[], ?_, rfl⟩
    rw [List.append_nil]
    refine ⟨h.run, ⟨none, rfl⟩, fun _ halign => ?_, fun hne => absurd rfl hne⟩
    rcases Nat.eq_zero_or_pos done with rfl | hpos
    · have hcache := h.run.unsent (h.start rfl)
      rw [hcache] at hhit ⊢
      exact ⟨(blockBase_of_inWindow halign hhit).symm, by rw [BlockSource, if_pos ⟨hhit, rfl⟩]⟩
    · rw [h.left halign hpos hlt] at hhit
      cases hhit
  · obtain ⟨sent, hrun, hcaller, hjudged⟩ := h.run.refill hrefilled
    refine ⟨_, ⟨hrun, hrefilled.kind, fun hok _ => ?_, fun hne => ⟨hrefilled.failed hne, ?_⟩⟩, hcaller⟩
    · subst hok
      obtain ⟨rfl, -⟩ := hjudged.of_ok
      obtain ⟨hbase, hdelivers, -⟩ := hrefilled.filled rfl
      refine ⟨hbase, ?_⟩
      rw [BlockSource, if_neg (h.not_start_block hd hlt hn hmiss)]
      refine ⟨fs.length + (refillSends (cardAddr d done) s).length, ?_, ?_⟩
      · rw [List.getElem?_append_right (Nat.le_add_right _ _), Nat.add_sub_cancel_left]
        exact refillWire_last _ s
      · rw [refillSends_of_part h.run.part, h.run.part.answerAt] at hdelivers
        exact hdelivers
    · obtain ⟨before, f, -, -, rfl, hst, -⟩ := hjudged.last (List.ne_nil_of_length_pos (refillSends_length_pos _ s))
      have hlast : fs ++ cmdFrame 7#6 0#32 :: (before ++ [f]) = (fs ++ cmdFrame 7#6 0#32 :: before) ++ [f] := by simp
      refine ⟨f, by rw [hlast, List.getLast?_concat], ?_⟩
      rw [hlast, ← hst]
      simp

/-- The addresses that a turn copies are those of its block, in order (R263). -/
theorem same_block (hd : descWf d = true) (hlt : x < clip d length) (hle : done ≤ x)
    (hoff : blockOff (cardAddr d done) + (x - done) < 512) :
    blockOff (cardAddr d x) = blockOff (cardAddr d done) + (x - done) ∧
    blockBase (cardAddr d x) = blockBase (cardAddr d done) := by
  have hdone := toNat_cardAddr hd (hle.trans_lt hlt)
  have hx := toNat_cardAddr hd hlt
  rw [blockOff_eq_mod, hdone] at hoff
  rw [blockOff_eq_mod, blockOff_eq_mod, BitVec.toNat_eq, toNat_blockBase, toNat_blockBase, hdone, hx]
  omega

/-- A turn of the loop whose window was there (R262, R263). -/
theorem Reading.copy (h : Reading d n s done u fs) (hd : descWf d = true) (hlt : done < n) (hn : n ≤ clip d length)
    (hx : ensureWindow (cardAddr d done) u = .ok (.ok, t)) :
    ∃ fs', Reading d n s (done + copyLen (cardAddr d done) (n - done))
      (copyOut (cardAddr d done) done (copyLen (cardAddr d done) (n - done)) t) fs' := by
  obtain ⟨gs, w, hcaller⟩ := h.window hd hlt hn hx
  obtain ⟨hone, hle, hblock⟩ := copyLen_bounds (a := cardAddr d done) hlt
  have hnext : done + copyLen (cardAddr d done) (n - done) < n →
      copyLen (cardAddr d done) (n - done) = 512 - blockOff (cardAddr d done) := by
    simp only [copyLen, Config.workBlock]
    omega
  generalize copyLen (cardAddr d done) (n - done) = k at *
  have hwf : Memory.wf t.caller = true := hcaller ▸ h.wf
  have hget := get_copyOut (done := done) hwf hblock
  refine ⟨fs ++ gs, w.run.copyOut, by omega, memory_wf_setAll _ _ hwf, fun x hx => ?_, fun _ hgo => ?_,
    fun halign _ hgo => ?_, fun halign x hx => ?_⟩
  · rw [hget, if_neg (by omega), hcaller, h.beyond x (by omega)]
  · have hk := hnext hgo
    subst hk
    exact (next_block hd (hgo.trans_le hn)).1
  · have hk := hnext hgo
    subst hk
    exact miss_next_block (w.held rfl halign).1 (next_block hd (hgo.trans_le hn)).2
  · rw [hget]
    by_cases hold : x < done
    · obtain ⟨block, hbyte, hsource⟩ := h.bytes halign x hold
      exact ⟨block, by rw [if_neg (by omega), hcaller, hbyte], hsource.append gs⟩
    · obtain ⟨hoff, hbase⟩ := same_block hd (show x < clip d length by omega) (Nat.le_of_not_lt hold)
        (show blockOff (cardAddr d done) + (x - done) < 512 by omega)
      exact ⟨t.cache.buf, by rw [if_pos (by omega), hoff], hbase ▸ (w.held rfl halign).2⟩

/-- How the loop ends, for a property that every turn with its window there keeps: with every byte copied, or in a turn
whose window was not there (R262). Every turn copies at least one byte, so the bound on the turns is not met. -/
theorem readTurns_ends {P : Nat → State → Prop}
    (copy : ∀ {done s t}, P done s → done < n → ensureWindow (cardAddr d done) s = .ok (.ok, t) →
      P (done + copyLen (cardAddr d done) (n - done))
        (copyOut (cardAddr d done) done (copyLen (cardAddr d done) (n - done)) t)) :
    ∀ (turns : Nat) {done : Nat} {s t : State}, n ≤ done + turns → done ≤ n → P done s →
      readTurns d n turns done s = .ok ((count, st), t) →
      (st = .ok ∧ count = n ∧ P n t) ∨
      (st ≠ .ok ∧ count < n ∧ ∃ u, P count u ∧ ensureWindow (cardAddr d count) u = .ok (st, t))
  | 0, done, s, t, hturns, hle, hp, h => by
    obtain rfl : done = n := by omega
    cases h
    exact .inl ⟨rfl, rfl, hp⟩
  | turns + 1, done, s, t, hturns, hle, hp, h => by
    unfold readTurns at h
    dsimp only at h
    split at h
    · next hlt =>
      split at h
      · cases h
      next st' u hx =>
      split at h
      · next hst =>
        subst hst
        obtain ⟨hone, hend, -⟩ := copyLen_bounds (a := cardAddr d done) hlt
        exact readTurns_ends copy turns (by omega) hend (copy hp hlt hx) h
      · next hst =>
        cases h
        exact .inr ⟨hst, hlt, s, hp, hx⟩
    · obtain rfl : done = n := by omega
      cases h
      exact .inl ⟨rfl, rfl, hp⟩

/-- What the loop has done when it ends (R262, R263, R269, R274). -/
structure ReadResult (d : Desc) (n : Nat) (s : State) (count : Nat) (st : Status) (t : State) (fs : List Frame) :
    Prop where
  run    : ReadRun s t fs
  le     : count ≤ n
  ok_iff : st = .ok ↔ count = n
  kind   : ∃ k, st = statusOf k
  beyond : ∀ x, count ≤ x → Memory.get t.caller x = Memory.get s.caller x
  bytes  : cacheAligned s = true → ∀ x, x < count → ∃ block : Block,
    Memory.get t.caller x = block.toList.getD (blockOff (cardAddr d x)) 0 ∧
    BlockSource s d fs (blockBase (cardAddr d x)) block
  failed : st ≠ .ok → t.cache.base = Config.cacheInvalid ∧
    ∃ f, fs.getLast? = some f ∧ answerStatus (frameIndex f) (answerAt s (fs.length - 1)) = st

theorem readResult_of_turns (hd : descWf d = true) (hidle : s.rfState = .idle) (hwf : Memory.wf s.caller = true)
    (h : readTurns d (clip d length) (clip d length) 0 s = .ok ((count, st), t)) :
    ∃ fs, ReadResult d (clip d length) s count st t fs := by
  have hstart : Reading d (clip d length) s 0 s [] :=
    ⟨.start hidle, fun _ => rfl, hwf, fun _ _ => rfl, nofun, nofun, nofun⟩
  obtain ⟨rfl, rfl, fs, hr⟩ | ⟨hne, hlt, u, ⟨fs, hr⟩, hx⟩ :=
    readTurns_ends (P := fun done u => ∃ fs, Reading d (clip d length) s done u fs)
      (fun ⟨_, hr⟩ hlt hx => hr.copy hd hlt le_rfl hx) _ (by omega) (Nat.zero_le _) ⟨_, hstart⟩ h
  · exact ⟨fs, hr.run, le_rfl, by simp, ⟨none, rfl⟩, hr.beyond, hr.bytes, fun hne => absurd rfl hne⟩
  · obtain ⟨gs, w, hcaller⟩ := hr.window hd hlt le_rfl hx
    refine ⟨fs ++ gs, w.run, hlt.le, by simp [hne, hlt.ne], w.kind, fun x hx => hcaller ▸ hr.beyond x hx,
      fun halign x hx => ?_, w.failed⟩
    obtain ⟨block, hbyte, hsource⟩ := hr.bytes halign x hx
    exact ⟨block, hcaller ▸ hbyte, hsource.append gs⟩

end turns

end Sys2Proof.Proofs

/-! SUPPORT. The statements about every READ, from the run of its loop. -/

namespace Sys2Proof.Proofs

open Sys2Proof.Machine Sys2Proof.Laws

section statements
variable {s t : State} {d : Desc} {bufSize length : Word} {fs : List Frame}

/-- A READ of an acquired card that completes ends as its loop does (R262). -/
theorem read_result (h : exec (.read d bufSize length) s = .next t) (ha : s.session.acquired = true)
    (hwf : Memory.wf s.caller = true) :
    ∃ count st u fs, ReadResult d (clip d length) s count st u fs ∧ t = readEnd d count st u := by
  obtain ⟨hb, hd, ⟨hna, -⟩ | ⟨-, count, st, u, hx, rfl⟩⟩ := exec_read_cases h
  · rw [ha] at hna
    cases hna
  · obtain ⟨fs, hresult⟩ := readResult_of_turns hd (rfState_of_between hb) hwf hx
    exact ⟨count, st, u, fs, hresult, rfl⟩

/-- Any READ that completes has run, and sends nothing without a card (R261). -/
theorem read_run (h : exec (.read d bufSize length) s = .next t) (hwf : Memory.wf s.caller = true) :
    ∃ count st u fs, t = readEnd d count st u ∧ ReadRun s u fs ∧ count < 2 ^ 32 ∧
      (∀ x, count ≤ x → Memory.get u.caller x = Memory.get s.caller x) ∧ (fs ≠ [] → s.session.acquired = true) := by
  cases ha : s.session.acquired with
  | true =>
    obtain ⟨count, st, u, fs, hresult, rfl⟩ := read_result h ha hwf
    exact ⟨count, st, u, fs, rfl, hresult.run, hresult.le.trans_lt (clip_lt d length), hresult.beyond, fun _ => rfl⟩
  | false =>
    obtain ⟨hb, -, ⟨-, rfl⟩ | ⟨ha', -⟩⟩ := exec_read_cases h
    · exact ⟨0, .genericFailure, s, [], rfl, .start (rfState_of_between hb), by decide, fun _ _ => rfl,
        fun hne => absurd rfl hne⟩
    · rw [ha] at ha'
      cases ha'

/-- The flags are at rest after a READ if they were before it (R200). -/
theorem ReadPart.flags (h : ReadPart s t fs) (hst : s.st = Flags.clear) : t.st = Flags.clear := by
  by_cases hfs : fs = []
  · rw [(h.unsent hfs).2.2.1, hst]
  · exact (h.sent hfs).2

end statements

/-- Settles O52, from what the loop has done when it ends (`readResult_of_turns`). -/
theorem readCountsWhatItCopied : Obligations.ReadCountsWhatItCopied := by
  intro s t d bufSize length h ha hwf
  obtain ⟨count, st, u, fs, ⟨⟨hpart, hidle, -, -⟩, hle, hok, ⟨k, hkind⟩, hbeyond, hbytes, hfailed⟩, rfl⟩ :=
    read_result h ha hwf
  have hsame := hpart.same
  simp only [untouchedByRefill, Prod.mk.injEq] at hsame
  obtain ⟨⟨hsession, hacqState, hacqResult, hcfg, hport, -⟩, -⟩ := hsame
  exact ⟨count, st, fs, rfl, rfl, hle, hok, hkind ▸ statusOf_cases k, hbeyond, hpart.wire, hbytes, hfailed, hsession,
    hacqState, hacqResult, hcfg, hport, hidle, hpart.flags⟩

/-- Settles O53, from the run of any READ (`read_run`). -/
theorem readKeepsItsFrame : Obligations.ReadKeepsItsFrame := by
  intro s t d bufSize length h hwf
  obtain ⟨count, st, u, fs, rfl, ⟨hpart, hidle, hunsent, hframes⟩, hlt, hbeyond, hacquired⟩ := read_run h hwf
  have hcount : (BitVec.ofNat 32 count).toNat = count := by rw [BitVec.toNat_ofNat, Nat.mod_eq_of_lt hlt]
  have hsame := hpart.same
  simp only [untouchedByRefill, Prod.mk.injEq] at hsame
  obtain ⟨⟨hsession, hacqState, hacqResult, hcfg, hport, -⟩, htries, hocr, hnegArg, hnegT0, hsdOut, hmmcOut⟩ := hsame
  refine ⟨⟨_, st, _, rfl, fun x hx => hbeyond x (hcount ▸ hx)⟩, hsession, hacqState, hacqResult, htries, hocr, hnegArg,
    hnegT0, hsdOut, hmmcOut, hcfg, hport, hpart.time, hidle, hpart.flags, hpart.busWide, hpart.clkRun, fs, hpart.wire,
    fun hnil => ?_, fun hne => ⟨(hpart.sent hne).1, hacquired hne⟩, hframes⟩
  obtain ⟨hrb, hclk, -, hbus⟩ := hpart.unsent hnil
  exact ⟨hrb, hunsent hnil, hclk, hbus⟩

end Sys2Proof.Proofs

/-! SUPPORT. The completion statuses and their codes. -/

namespace Sys2Proof.Proofs

open Sys2Proof.Machine

/-- Codes 6 and 7, and no others, stand for no status (R291). -/
theorem status_ofCode_eq_none_iff (c : BitVec 3) : Status.ofCode c = none ↔ c = 6#3 ∨ c = 7#3 := by
  revert c
  decide

/-- Settles O19: the codes and the pairing row by row, the two free codes by `status_ofCode_eq_none_iff`. -/
theorem statusCodesAndPairing : Obligations.StatusCodesAndPairing := by
  have hfree := status_ofCode_eq_none_iff
  exact ⟨rfl, (hfree 6).mpr (.inl rfl), (hfree 7).mpr (.inr rfl), rfl, rfl, rfl, rfl, rfl, rfl⟩

end Sys2Proof.Proofs
